-- ==== Sys2Proof/Word.lean ====
section
/-! DEFINITION. The words of the MAX31865 sensor-interface controller: 32-bit host words and 8-bit SPI words. -/

namespace Sys2Proof

/-- A host register, a command word, an operand: `u32` or the bits of an `s32` (R10, R62). -/
abbrev Word := BitVec 32

/-- One SPI word (R8: "8 bits per word"). -/
abbrev Byte := BitVec 8

end Sys2Proof
end

