-- ==== Sys2Proof/Config.lean ====
section
/-! DEFINITION. What an implementation fixes (the parameters of R7), the vocabulary of the SPI bus (R47, R72), and the
free values: opaque constants, so that no proof can know what they are. -/

namespace Sys2Proof

/-- One entry `(r_i, t_i)` of TABLE: a `u32` key in ohms-value units and an `s32` temperature in centidegrees, held as its
two's-complement bits (R41). -/
structure Sample where
  r : Word
  t : Word
deriving DecidableEq, Repr

/-- `T_CS` of R7: CS-to-SCLK setup and hold, minimum CS-high time and the gap between bytes. No rule depends on it (R116).
DESIGN CHOICE: R7 says "timing", any value, and gives no unit and no shape; here it is four natural numbers with no unit, and one
number stands for every gap between bytes (log entry 24). -/
structure CsTiming where
  setup : Nat
  hold : Nat
  high : Nat
  gap : Nat
deriving DecidableEq, Repr, Inhabited

/-- The elaboration parameters of R7, each a named argument of the model. An instance is a value of this type; the
machine holds its instance in its state, and no step changes it. -/
structure Params where
  /-- `CAL`, the calibration constant. -/
  cal : Word
  /-- `TABLE`, the resistance/temperature table. -/
  table : List Sample
  /-- `HAS_READY_LINE`. -/
  hasReadyLine : Bool
  /-- `READY_ACTIVE`. -/
  readyActive : Bool
  /-- `P_WIRE3_BIT`. -/
  wire3Bit : Bool
  /-- `P_RSVD`. -/
  rsvd : BitVec 3
  /-- `VERIFY_MASK`. -/
  verifyMask : Byte
  /-- `F_SCLK`. No rule depends on it (R280). DESIGN CHOICE: R7 says "frequency", above 0, and gives no unit and no granularity; here
  it is a whole number of hertz (log entry 24). -/
  fSclk : Nat
  /-- `BASE`, a host byte address. -/
  base : Nat
  /-- `MOSI_IDLE`. No rule depends on it (R45). -/
  mosiIdle : Bool
  /-- `T_CS`, in the form of log entry 24. -/
  csTiming : CsTiming
deriving DecidableEq, Repr

/-- The kind of a bus transaction (R47). -/
inductive TxKind where
  | full
  | half
  | write
deriving DecidableEq, Repr

/-- What a transaction returned: the bytes it captured, or `IOFAIL` (R47). -/
inductive TxResult where
  | bytes (rx : List Byte)
  | ioFail
deriving DecidableEq, Repr

/-- One event `(kind, tx, result)` of the bus history `H` (R47). -/
structure Event where
  kind : TxKind
  tx : List Byte
  result : TxResult
deriving DecidableEq, Repr

/-- What the peripheral oracle answers to one transaction (R72). `done` carries the two bytes of the receive phase; a WRITE
transaction captures none of them (R113). -/
inductive OracleAnswer where
  | done (rx0 rx1 : Byte)
  | ioFail
  | hang
deriving DecidableEq, Repr, Inhabited

/-- FREE VALUE. The peripheral oracle of R72: it sees the number of the draw, the history `H`, the kind and the bytes sent.
No law constrains it ("The model places no law on the choice"). Log entry 3. -/
opaque Config.oracle : Nat → List Event → TxKind → List Byte → OracleAnswer

/-- FREE VALUE. The level of RDY at a sample (R44): a free draw, with no law relating successive samples. Log entry 3. -/
opaque Config.readyLevel : Nat → Bool

/-- FREE VALUE. Whether a HALF transaction that hangs does so in its read phase (R46, R112). Log entry 5. -/
opaque Config.hangInReadPhase : Nat → Bool

/-- FREE VALUE. The level SCLK is left at by a transaction that hangs. Log entry 5. -/
opaque Config.hangSclk : Nat → Bool

/-- FREE VALUE. The level MOSI is left at by a transaction that hangs. Log entry 5. -/
opaque Config.hangMosi : Nat → Bool

/-- FREE VALUE. Whether a HALF transaction that fails does so in its read phase (R112: "if either phase fails"), at a draw. Log
entry 16. -/
opaque Config.failsInReadPhase : Nat → Bool

/-- FREE VALUE. How far into the phase it fails in a failed transaction has come, at a draw. Log entry 16. -/
opaque Config.failedAfter : Nat → Nat

/-- FREE VALUE. What MISO carries at a draw as byte `k` of a transaction while the block discards it: in the write phase of HALF
(R112), in WRITE (R113), and in a transaction that fails (R115). Log entry 16. -/
opaque Config.misoDiscarded : Nat → Nat → Byte

/-- FREE VALUE. The level of MISO between the fall of CS and the first edge of SCLK, at a draw. Log entry 16. -/
opaque Config.misoBefore : Nat → Bool

/-- FREE VALUE. The level of MISO after CS has risen, where the block ignores it (R45), at a draw. Log entry 16. -/
opaque Config.misoAfter : Nat → Bool

/-- FREE VALUE. `MOSI_IDLE` of the reference instance: R7 leaves it unspecified. Log entry 7. -/
opaque Config.mosiIdle : Bool

/-- FREE VALUE. `T_CS` of the reference instance: R7 leaves it unspecified. Log entry 7. -/
opaque Config.csTiming : CsTiming

/-- `TBL_EX` of 95_test_vectors.md section 0, the table of the reference instance. Log entry 6. -/
def Config.tblEx : List Sample :=
  [⟨1852#32, BitVec.ofInt 32 (-20000)⟩, ⟨6026#32, BitVec.ofInt 32 (-10000)⟩, ⟨10000#32, 0#32⟩, ⟨13851#32, 10000#32⟩] ++
  [⟨17586#32, 20000#32⟩, ⟨21205#32, 30000#32⟩, ⟨24709#32, 40000#32⟩]

/-- The reference instance: the reference values of R7, and where R7 gives none those of 95_test_vectors.md section 0
(`HAS_READY_LINE`, `TABLE`) or a value of log entries 6 and 7 (`BASE`, `MOSI_IDLE`, `T_CS`). -/
def Params.reference : Params where
  cal := 43234#32
  table := Config.tblEx
  hasReadyLine := true
  readyActive := false
  wire3Bit := false
  rsvd := 0b010#3
  verifyMask := 0xFF#8
  fSclk := 5000000
  base := 0
  mosiIdle := Config.mosiIdle
  csTiming := Config.csTiming

end Sys2Proof
end

