-- ==== Sys2Proof/Syntax.lean ====
section
/-! DEFINITION. The eleven commands of spec/opcode_table.json (R92) as syntax, one constructor per row. -/

namespace Sys2Proof

/-- `wire_count` (R140). -/
inductive Wire where
  | two
  | three
  | four
deriving DecidableEq, Repr

/-- `filter_mode` (R140). -/
inductive Filter where
  | hz50
  | hz60
deriving DecidableEq, Repr

/-- The source's Max31865Config: the five logical fields CONFIGURE carries (R140). -/
structure Cfg where
  vbias : Bool
  cmode : Bool
  oneShot : Bool
  wire : Wire
  filter : Filter
deriving DecidableEq, Repr

/-- The commands of R92. The operand of DECODE and LOOKUP is not in the command word: it is the latched ARG (R95). -/
inductive Instr where
  /-- CONFIGURE, opcode 0x1 (R145). -/
  | configure (cfg : Cfg)
  /-- IS_READY, opcode 0x2 (R155). -/
  | isReady
  /-- READ_RAW, opcode 0x3 (R160). -/
  | readRaw
  /-- DECODE, opcode 0x4 (R180). -/
  | decode
  /-- LOOKUP, opcode 0x5 (R195). -/
  | lookup
  /-- MEASURE, opcode 0x6 (R215). -/
  | measure
  /-- RW_HALF, opcode 0x7: address byte and value byte (R118). -/
  | rwHalf (a v : Byte)
  /-- XFER, opcode 0x8: address byte (R121). -/
  | xfer (a : Byte)
  /-- WRITE_REG, opcode 0x9: the A field, a register index with A[7] = 0, and the value byte (R124). -/
  | writeReg (i v : Byte)
  /-- READ_REG, opcode 0xA: the A field, a register index with A[7] = 0 (R127). -/
  | readReg (i : Byte)
  /-- SOFT_RESET, opcode 0xB (R165). -/
  | softReset
deriving DecidableEq, Repr

end Sys2Proof
end

