-- ==== Sys2Proof/WellFormed.lean ====
section
/-! DEFINITION. Which commands and which instances are legal: the operand limits of R96 that the syntax leaves open, and the
legal column of R7. -/

namespace Sys2Proof

/-- R96 item 5: the index of WRITE_REG and READ_REG has A[7] = 0. Every other operand is legal at every value its type has. -/
def Instr.wf : Instr → Bool
  | .configure _ => true
  | .isReady => true
  | .readRaw => true
  | .decode => true
  | .lookup => true
  | .measure => true
  | .rwHalf _ _ => true
  | .xfer _ => true
  | .writeReg i _ => !i.msb
  | .readReg i => !i.msb
  | .softReset => true

/-- R7, R41: the keys of the table are strictly increasing, as unsigned numbers. -/
def tableIncreasing : List Sample → Bool
  | [] => true
  | [_] => true
  | a :: b :: rest => decide (a.r.toNat < b.r.toNat) && tableIncreasing (b :: rest)

/-- The legal column of R7 (R265): 2 <= N <= 65535 with strictly increasing keys, `F_SCLK` > 0 and `BASE` aligned to 64
bytes. The other parameters are legal at every value of their type. -/
def Params.legal (p : Params) : Bool :=
  decide (2 ≤ p.table.length) && decide (p.table.length ≤ 65535) && tableIncreasing p.table &&
    decide (0 < p.fSclk) && decide (p.base % 64 = 0)

end Sys2Proof
end

