-- ==== Sys2Proof/Decode.lean ====
section
/-! DEFINITION. Command words: the decoder, total on 32-bit words and rejecting by name (R90 to R98), the encoder, and the
opcode table's match and mask rows (R93). -/

namespace Sys2Proof

/-- OPC, bits 31:28 of a command word (R90). -/
def opcOf (w : Word) : BitVec 4 := w.extractLsb' 28 4

/-- RSV, bits 27:16 (R90). -/
def rsvOf (w : Word) : BitVec 12 := w.extractLsb' 16 12

/-- A, bits 15:8 (R90). -/
def aOf (w : Word) : Byte := w.extractLsb' 8 8

/-- V, bits 7:0 (R90). -/
def vOf (w : Word) : Byte := w.extractLsb' 0 8

/-- Why a word is illegal (R96). The block records none of this (R234): the names are the decoder's own. -/
inductive Illegal where
  /-- R96 item 1: OPC is 0x0 or 0xC to 0xF. -/
  | opcode
  /-- R96 item 2: RSV is not zero. -/
  | reserved
  /-- R96 item 3: an A field marked zero is not zero. -/
  | fieldA
  /-- R96 item 3: a V field marked zero is not zero. -/
  | fieldV
  /-- R96 item 4: WIRE is 0b11. -/
  | wire
  /-- R96 item 4: V[2:1] of CONFIGURE is not 0b00. -/
  | cfgReserved
  /-- R96 item 5: A[7] of WRITE_REG or READ_REG is 1. -/
  | index
deriving DecidableEq, Repr

/-- The WIRE values of R94. -/
def wireOf : BitVec 2 → Option Wire
  | 0b00#2 => some .two
  | 0b01#2 => some .three
  | 0b10#2 => some .four
  | _ => none

/-- What a word decodes to: one command, or illegal (R98). -/
inductive Decoded where
  | command (i : Instr)
  | illegal (why : Illegal)
deriving DecidableEq, Repr

/-- R94, R141: CONFIGURE with the configuration fields of V. -/
def decodeConfigure (v : Byte) : Decoded :=
  if v.extractLsb' 1 2 ≠ 0#2 then .illegal .cfgReserved
  else
    match wireOf (v.extractLsb' 3 2) with
    | none => .illegal .wire
    | some wire =>
      .command (.configure
        { vbias := v.getLsbD 7, cmode := v.getLsbD 6, oneShot := v.getLsbD 5, wire := wire,
          filter := if v.getLsbD 0 then .hz50 else .hz60 })

/-- A row of R92 that marks both A and V as zero. -/
def bare (w : Word) (i : Instr) : Decoded :=
  if aOf w ≠ 0#8 then .illegal .fieldA else if vOf w ≠ 0#8 then .illegal .fieldV else .command i

/-- R92, R96, R98: the command a word stands for, or the first reason found that it is illegal. -/
def decodeWord (w : Word) : Decoded :=
  if rsvOf w ≠ 0#12 then .illegal .reserved
  else
    match (opcOf w).toNat with
    | 1 => if aOf w ≠ 0#8 then .illegal .fieldA else decodeConfigure (vOf w)
    | 2 => bare w .isReady
    | 3 => bare w .readRaw
    | 4 => bare w .decode
    | 5 => bare w .lookup
    | 6 => bare w .measure
    | 7 => .command (.rwHalf (aOf w) (vOf w))
    | 8 => if vOf w ≠ 0#8 then .illegal .fieldV else .command (.xfer (aOf w))
    | 9 => if (aOf w).msb then .illegal .index else .command (.writeReg (aOf w) (vOf w))
    | 10 =>
      if (aOf w).msb then .illegal .index
      else if vOf w ≠ 0#8 then .illegal .fieldV
      else .command (.readReg (aOf w))
    | 11 => bare w .softReset
    | _ => .illegal .opcode

/-- The word the table's bits stand for: `nbits` bits of `w`, every bit above them 0. -/
def tableWord (nbits w : Nat) : Word := BitVec.ofNat 32 (w % 2 ^ nbits)

/-- The command the decoder reads from a word numbered as spec/opcode_table.json numbers it. A command is one 32-bit word
(R91), so no command has more than 32 bits. -/
def decodeTableWord (nbits w : Nat) : Option Instr :=
  if nbits ≤ 32 then
    match decodeWord (tableWord nbits w) with
    | .command i => some i
    | .illegal _ => none
  else none

/-! The encoder. -/

/-- The one format of R90: OPC, RSV = 0, A, V. -/
def cmdWord (opc : BitVec 4) (a v : Byte) : Word := opc ++ 0#12 ++ a ++ v

/-- The bits of WIRE (R94). -/
def Wire.bits : Wire → BitVec 2
  | .two => 0b00#2
  | .three => 0b01#2
  | .four => 0b10#2

/-- F50 of R94: 1 for the 50 Hz notch. -/
def Filter.bit : Filter → Bool
  | .hz50 => true
  | .hz60 => false

/-- The V field of CONFIGURE (R94). -/
def Cfg.vField (c : Cfg) : Byte :=
  BitVec.ofBool c.vbias ++ BitVec.ofBool c.cmode ++ BitVec.ofBool c.oneShot ++ c.wire.bits ++ 0#2 ++
    BitVec.ofBool c.filter.bit

/-- The OPC value of each command (R92). -/
def Instr.opc : Instr → BitVec 4
  | .configure _ => 0x1#4
  | .isReady => 0x2#4
  | .readRaw => 0x3#4
  | .decode => 0x4#4
  | .lookup => 0x5#4
  | .measure => 0x6#4
  | .rwHalf _ _ => 0x7#4
  | .xfer _ => 0x8#4
  | .writeReg _ _ => 0x9#4
  | .readReg _ => 0xA#4
  | .softReset => 0xB#4

/-- The A field of each command (R92). -/
def Instr.aField : Instr → Byte
  | .configure _ => 0#8
  | .isReady => 0#8
  | .readRaw => 0#8
  | .decode => 0#8
  | .lookup => 0#8
  | .measure => 0#8
  | .rwHalf a _ => a
  | .xfer a => a
  | .writeReg i _ => i
  | .readReg i => i
  | .softReset => 0#8

/-- The V field of each command (R92). -/
def Instr.vField : Instr → Byte
  | .configure c => c.vField
  | .isReady => 0#8
  | .readRaw => 0#8
  | .decode => 0#8
  | .lookup => 0#8
  | .measure => 0#8
  | .rwHalf _ v => v
  | .xfer _ => 0#8
  | .writeReg _ v => v
  | .readReg _ => 0#8
  | .softReset => 0#8

/-- The command word of a command (R90, R92). -/
def encode (i : Instr) : Word := cmdWord i.opc i.aField i.vField

/-! The match and mask rows. -/

/-- One row of R93. -/
structure OpcodeRow where
  opc : BitVec 4
  value : Word
  mask : Word
deriving DecidableEq, Repr

/-- A word is a row's command when `w & mask = match` (R93). -/
def OpcodeRow.hits (r : OpcodeRow) (w : Word) : Bool := w &&& r.mask == r.value

/-- The eleven rows of R93, in the order of the table. -/
def opcodeRows : List OpcodeRow :=
  [⟨0x1#4, 0x10000000#32, 0xFFFFFF06#32⟩, ⟨0x2#4, 0x20000000#32, 0xFFFFFFFF#32⟩, ⟨0x3#4, 0x30000000#32, 0xFFFFFFFF#32⟩] ++
  [⟨0x4#4, 0x40000000#32, 0xFFFFFFFF#32⟩, ⟨0x5#4, 0x50000000#32, 0xFFFFFFFF#32⟩, ⟨0x6#4, 0x60000000#32, 0xFFFFFFFF#32⟩] ++
  [⟨0x7#4, 0x70000000#32, 0xFFFF0000#32⟩, ⟨0x8#4, 0x80000000#32, 0xFFFF00FF#32⟩, ⟨0x9#4, 0x90000000#32, 0xFFFF8000#32⟩] ++
  [⟨0xA#4, 0xA0000000#32, 0xFFFF80FF#32⟩, ⟨0xB#4, 0xB0000000#32, 0xFFFFFFFF#32⟩]

/-- The condition on CONFIGURE that no mask expresses: V[4:3] must not be 0b11 (R93). -/
def wireLegal (w : Word) : Bool := w.extractLsb' 3 2 != 0b11#2

end Sys2Proof
end

