-- ==== Sys2Proof/Machine/State.lean ====
section
/-! DEFINITION. The state of the block and of the agents around it, as plain data, and its value after reset (R20 to R50). -/

namespace Sys2Proof.Machine

open Sys2Proof

/-- STATUS.STATE, the register-protocol state (R27). 0b11 is never held: it is no value of this type. -/
inductive ProtoState where
  | unconfigured
  | configured
  | reading
deriving DecidableEq, Repr

/-- The codes of STATUS.ERR (R230). The reserved codes 0x6 to 0xF are never produced: they are no values of this type. -/
inductive ErrCode where
  | ok
  | illegal
  | state
  | noReady
  | io
  | verify
deriving DecidableEq, Repr

/-- The fields of STATUS (R25). The reserved bits are not stored: they read as 0 (R33). -/
structure Status where
  /-- BUSY (R26). -/
  busy : Bool
  /-- STATE (R27). -/
  state : ProtoState
  /-- STICKY (R28). -/
  sticky : Bool
  /-- ERR (R29). -/
  err : ErrCode
  /-- FAULT (R30). -/
  fault : Bool
  /-- OOR (R31). -/
  oor : Bool
  /-- READY (R32). -/
  ready : Bool
deriving DecidableEq, Repr

/-- PHASE, the position of the controller (R21). -/
inductive Phase where
  | idle
  | exec (op : BitVec 4) (step : Nat)
deriving DecidableEq, Repr

/-- The part of a transaction that is on the bus (the `phase` of R46): a FULL transaction exchanges, a WRITE only writes,
and a HALF has a write phase and a read phase (R111 to R113). -/
inductive BusPhase where
  | exchange
  | writing
  | reading
deriving DecidableEq, Repr

/-- The value of `XF` other than NONE (R46). -/
structure Transfer where
  kind : TxKind
  tx : List Byte
  phase : BusPhase
deriving DecidableEq, Repr

/-- The two bytes one transaction captured. -/
structure Rx where
  b0 : Byte
  b1 : Byte
deriving DecidableEq, Repr

/-- The operand latch OPL (R42): the command word, the latched ARG, and the command's intermediate values: the bytes its
first and its second transaction received, and whether a transaction of it returned IOFAIL. -/
structure Opl where
  w : Word
  arg : Word
  failed : Bool
  rx1 : Rx
  rx2 : Rx
deriving DecidableEq, Repr

/-- What the block answers to one host access (R60). -/
inductive Answer where
  | ok
  | data (v : Word)
  | busErr
deriving DecidableEq, Repr

/-- One operation of the host's program: `MemRead(addr, n)`, `MemWrite(addr, n, v)` (R60), or one of the two host loops of
R101. `pollCheck` is the closing `LW 0x08` of POLL_READY with its test. -/
inductive HostOp where
  | read (addr n : Nat)
  | write (addr n : Nat) (v : Word)
  | wait
  | pollReady
  | pollCheck
deriving DecidableEq, Repr

/-- Who moves next: the host, the controller, or the reset input going to a level (R20, R261). -/
inductive Turn where
  | host
  | ctrl
  | rst (level : Bool)
deriving DecidableEq, Repr

/-- The state. The first group is the block's own (R49), the second what surrounds it (R20). -/
structure State where
  /-- The instance: CAL, TABLE and the parameters INFO shows (R7, R39 to R41). No step changes it. -/
  params : Params
  /-- CMD (R23). -/
  cmd : Word
  /-- ARG (R24). -/
  arg : Word
  /-- STATUS (R25). -/
  status : Status
  /-- RAW[15:0] (R34). RAW[31:16] is reserved and reads 0. -/
  raw : BitVec 16
  /-- OHMS (R35). -/
  ohms : Word
  /-- TEMP (R36). -/
  temp : Word
  /-- CFG[7:0], CFGW (R37). -/
  cfgw : Byte
  /-- CFG[15:8], CFGRB (R37). -/
  cfgrb : Byte
  /-- RXD[7:0] (R38). -/
  rxd : Byte
  /-- PHASE (R21). -/
  phase : Phase
  /-- OPL (R42). -/
  opl : Opl
  /-- XF (R46); `none` is NONE. -/
  xf : Option Transfer
  /-- CS: true is 1, deasserted (R43). -/
  cs : Bool
  /-- The level of SCLK (R45). -/
  sclk : Bool
  /-- The level of MOSI (R45). -/
  mosi : Bool
  /-- The reset input RST: true while asserted (R260). -/
  rst : Bool
  /-- A host write to CMD that is held, with its word (R65). -/
  held : Option Word
  /-- H, the bus history, oldest first (R47). -/
  hist : List Event
  /-- The answers the host's completed accesses got, oldest first (R60): the model's record. -/
  answers : List Answer
  /-- The host's program: the operations it has still to perform (R100). -/
  program : List HostOp
  /-- The turns still to come, as far as they are laid down: which agent moves next. -/
  turns : List Turn
  /-- The peripheral's answers still to come, as far as they are laid down; after them the oracle answers. -/
  spiIn : List OracleAnswer
  /-- The RDY samples still to come, as far as they are laid down; after them `Config.readyLevel` gives them. -/
  rdyIn : List Bool
  /-- The model's own: how many free draws have been made. -/
  draws : Nat
deriving DecidableEq, Repr

/-- The reasons the machine stops with a fault. -/
inductive Fault where
  /-- Raised by the host's turn when its access is addressed outside the window `BASE` to `BASE + 0x3F`: the host reaches the
  block only through the window (R60), so such an access is none of the block's and the spec gives it no effect here.
  Safe: the model stops. -/
  | outsideWindow
deriving DecidableEq, Repr

/-- The reasons the machine refuses to run. -/
inductive Refusal where
  /-- Raised by `exec` for a command that has no meaning in this model yet. Safe. -/
  | notModelled (mnemonic : String)
  /-- Raised by every step of an instance whose parameters break the legal column of R7: "An instance whose values break it is
  refused, not run" (R265: no rule gives it a meaning). Safe. -/
  | illegalInstance
deriving DecidableEq, Repr

/-- The outcome of one step. -/
abbrev Outcome := Host.Outcome State Fault Refusal

/-- STATUS after reset: 0x00000000 (R49). -/
def Status.reset : Status where
  busy := false
  state := .unconfigured
  sticky := false
  err := .ok
  fault := false
  oor := false
  ready := false

/-- OPL after reset. Its reset value is never observed (R42, R49); zeros, log entry 8. -/
def Opl.reset : Opl where
  w := 0#32
  arg := 0#32
  failed := false
  rx1 := ⟨0#8, 0#8⟩
  rx2 := ⟨0#8, 0#8⟩

/-- An instance right after power-on, which behaves as a reset (R49, R260), with nothing yet on the bus and nothing yet asked
of it. -/
def State.powerOn (p : Params) : State where
  params := p
  cmd := 0#32
  arg := 0#32
  status := Status.reset
  raw := 0#16
  ohms := 0#32
  temp := 0#32
  cfgw := 0#8
  cfgrb := 0#8
  rxd := 0#8
  phase := .idle
  opl := Opl.reset
  xf := none
  cs := true
  sclk := true
  mosi := p.mosiIdle
  rst := false
  held := none
  hist := []
  answers := []
  program := []
  turns := []
  spiIn := []
  rdyIn := []
  draws := 0

/-- The reference instance right after reset (R49, R260). -/
def State.reset : State := State.powerOn Params.reference

end Sys2Proof.Machine
end

