-- ==== Sys2Proof/Machine/Flags.lean ====
section
/-! DEFINITION. The fields of STATUS as bits, every flag computation, and the read-only words built from fields (R25, R33,
R34, R37, R38, R40, R148, R155, R182). -/

namespace Sys2Proof.Machine

open Sys2Proof

/-- The encoding of STATUS.STATE (R27). -/
def ProtoState.code : ProtoState → BitVec 2
  | .unconfigured => 0b00#2
  | .configured => 0b01#2
  | .reading => 0b10#2

/-- The encoding of STATUS.ERR (R230). -/
def ErrCode.code : ErrCode → BitVec 4
  | .ok => 0x0#4
  | .illegal => 0x1#4
  | .state => 0x2#4
  | .noReady => 0x3#4
  | .io => 0x4#4
  | .verify => 0x5#4

/-- `code != OK` of R80. -/
def ErrCode.isError : ErrCode → Bool
  | .ok => false
  | .illegal => true
  | .state => true
  | .noReady => true
  | .io => true
  | .verify => true

/-- The STATUS word (R25): bits 31:11 reserved, READY, OOR, FAULT, ERR, STICKY, STATE, BUSY. -/
def Status.word (st : Status) : Word :=
  0#21 ++ BitVec.ofBool st.ready ++ BitVec.ofBool st.oor ++ BitVec.ofBool st.fault ++ st.err.code ++
    BitVec.ofBool st.sticky ++ st.state.code ++ BitVec.ofBool st.busy

/-- STICKY after a commit with a code: `r[STICKY] | (code != OK)` (R80, R232). -/
def stickyAfter (sticky : Bool) (code : ErrCode) : Bool := sticky || code.isError

/-- The fault bit of a raw value: bit 0 (R182). -/
def faultBit (raw : BitVec 16) : Bool := raw.getLsbD 0

/-- READY after a sample of the ready line: 1 when the level equals `READY_ACTIVE` (R32, R155). -/
def readyFlag (p : Params) (level : Bool) : Bool := level == p.readyActive

/-- The verification of CONFIGURE: the read-back agrees with the written byte on the bits of `VERIFY_MASK` (R148). -/
def verifyPasses (p : Params) (b rb : Byte) : Bool := (rb &&& p.verifyMask) == (b &&& p.verifyMask)

/-- The RAW word (R34). -/
def rawWord (raw : BitVec 16) : Word := raw.setWidth 32

/-- The CFG word: CFGRB in bits 15:8, CFGW in bits 7:0 (R37). -/
def cfgWord (cfgw cfgrb : Byte) : Word := 0#16 ++ cfgrb ++ cfgw

/-- The RXD word (R38). -/
def rxdWord (rxd : Byte) : Word := rxd.setWidth 32

/-- The INFO word (R40): N, `VERIFY_MASK`, two zeros, `P_RSVD`, `P_WIRE3_BIT`, `READY_ACTIVE`, `HAS_READY_LINE`. -/
def infoWord (p : Params) : Word :=
  BitVec.ofNat 16 p.table.length ++ p.verifyMask ++ 0#2 ++ p.rsvd ++ BitVec.ofBool p.wire3Bit ++
    BitVec.ofBool p.readyActive ++ BitVec.ofBool p.hasReadyLine

end Sys2Proof.Machine
end

