-- ==== Sys2Proof/Machine/Operands.lean ====
section
/-! DEFINITION. The operand forms of the commands: the configuration byte (R142, R143), the bus addresses (R66, R67), the
latched ARG (R95) and the raw value (R69). -/

namespace Sys2Proof.Machine

open Sys2Proof

/-- `wbit` of R142: the value of configuration bit 4 for each wire count. -/
def wireBit (p : Params) : Wire → Bool
  | .two => !p.wire3Bit
  | .three => p.wire3Bit
  | .four => !p.wire3Bit

/-- `pack` of R142: the configuration byte. -/
def pack (p : Params) (c : Cfg) : Byte :=
  BitVec.ofBool c.vbias ++ BitVec.ofBool c.cmode ++ BitVec.ofBool c.oneShot ++ BitVec.ofBool (wireBit p c.wire) ++
    p.rsvd ++ BitVec.ofBool c.filter.bit

/-- `unpack` of R143. No command uses it. -/
def unpack (p : Params) (b : Byte) : Cfg where
  vbias := b.getLsbD 7
  cmode := b.getLsbD 6
  oneShot := b.getLsbD 5
  wire := if b.getLsbD 4 == p.wire3Bit then .three else .four
  filter := if b.getLsbD 0 then .hz50 else .hz60

/-- The peripheral's configuration register at its read address (R66). -/
def addrConfig : Byte := 0x00#8

/-- The peripheral's RTD MSB register (R66). -/
def addrMsb : Byte := 0x01#8

/-- The peripheral's RTD LSB register (R66). -/
def addrLsb : Byte := 0x02#8

/-- `write_addr = read_addr | 0x80` (R67). -/
def writeAddr (a : Byte) : Byte := 0x80#8 ||| a

/-- A register read puts the address first and 0x00 second (R70). -/
def readBytes (a : Byte) : List Byte := [a, 0x00#8]

/-- A register write puts the address first and the value second (R70). -/
def writeBytes (a v : Byte) : List Byte := [a, v]

/-- `raw16 = msb << 8 | lsb` (R69). -/
def raw16 (msb lsb : Byte) : BitVec 16 := msb ++ lsb

/-- DECODE's operand: OPL.arg[15:0] (R95, R180). -/
def Opl.rawOperand (o : Opl) : BitVec 16 := o.arg.extractLsb' 0 16

/-- LOOKUP's operand: OPL.arg[31:0], unsigned (R95, R195). -/
def Opl.ohmsOperand (o : Opl) : Word := o.arg

/-- The raw value READ_RAW and MEASURE build from the second received byte of each of their two transactions (R70, R160). -/
def Opl.rawRead (o : Opl) : BitVec 16 := raw16 o.rx1.b1 o.rx2.b1

/-- The `step` of PHASE: how many bus transactions the running command has completed (R21); 0 when no command runs. -/
def Phase.step : Phase → Nat
  | .idle => 0
  | .exec _ n => n

/-- PHASE after one more completed transaction (R21). -/
def Phase.advance : Phase → Phase
  | .idle => .idle
  | .exec op n => .exec op (n + 1)

/-- Where the bytes of a completed transaction go in OPL (R42): a WRITE captures none (R113). -/
def Opl.store (o : Opl) (kind : TxKind) (step : Nat) (rx : Rx) : Opl :=
  match kind with
  | .write => o
  | .full => if step = 0 then { o with rx1 := rx } else { o with rx2 := rx }
  | .half => if step = 0 then { o with rx1 := rx } else { o with rx2 := rx }

/-- The ten registers of the window (R22). -/
inductive Reg where
  | cmd
  | arg
  | status
  | raw
  | ohms
  | temp
  | cfg
  | rxd
  | cal
  | info
deriving DecidableEq, Repr

/-- The offsets of R22. -/
def Reg.offset : Reg → Nat
  | .cmd => 0x00
  | .arg => 0x04
  | .status => 0x08
  | .raw => 0x0C
  | .ohms => 0x10
  | .temp => 0x14
  | .cfg => 0x18
  | .rxd => 0x1C
  | .cal => 0x20
  | .info => 0x24

/-- The registers of the window, in the order of R22. -/
def Reg.all : List Reg := [.cmd, .arg, .status, .raw, .ohms, .temp, .cfg, .rxd, .cal, .info]

/-- The register at an offset of the window, if there is one: 0x28 to 0x3F are reserved (R22, R63). -/
def Reg.ofOffset (off : Nat) : Option Reg := Reg.all.find? (fun r => r.offset == off)

/-- The offset an address has in the window `BASE` to `BASE + 0x3F` (R60). -/
def windowOffset (p : Params) (addr : Nat) : Option Nat :=
  if p.base ≤ addr ∧ addr < p.base + 64 then some (addr - p.base) else none

/-- R61: the window accepts only accesses of 4 bytes at an aligned offset. -/
def acceptedShape (off n : Nat) : Bool := n == 4 && off % 4 == 0

end Sys2Proof.Machine
end

