-- ==== Sys2Proof/Machine/Wire.lean ====
section
/-! DEFINITION. The wire: the levels of CS, SCLK, MOSI and MISO during one transaction, bit by bit, and the bytes the block
shifts in from them (R45, R71, R110 to R113, R116). Levels only: the spec gives no time (R280). -/

namespace Sys2Proof.Machine

open Sys2Proof

/-- The levels of the three outputs and of the input MISO at one moment (R43, R45). -/
structure Levels where
  cs : Bool
  sclk : Bool
  mosi : Bool
  miso : Bool
deriving DecidableEq, Repr

/-- The bits of a byte in wire order, most significant first (R71). -/
def byteBits (b : Byte) : List Bool :=
  [b.getLsbD 7, b.getLsbD 6, b.getLsbD 5, b.getLsbD 4, b.getLsbD 3, b.getLsbD 2, b.getLsbD 1, b.getLsbD 0]

/-- The byte that eight sampled bits make, the first the most significant (R71). -/
def bitsByte (b7 b6 b5 b4 b3 b2 b1 b0 : Bool) : Byte :=
  BitVec.ofBool b7 ++ BitVec.ofBool b6 ++ BitVec.ofBool b5 ++ BitVec.ofBool b4 ++ BitVec.ofBool b3 ++
    BitVec.ofBool b2 ++ BitVec.ofBool b1 ++ BitVec.ofBool b0

/-- The bytes the block sends on MOSI: HALF sends 0x00 for each byte of its read phase (R112). -/
def mosiBytes (kind : TxKind) (tx : List Byte) : List Byte :=
  match kind with
  | .full => tx
  | .half => tx ++ [0x00#8, 0x00#8]
  | .write => tx

/-- The bytes the peripheral puts on MISO: `rx` in the exchange of FULL (R111) and in the read phase of HALF (R112); in the write
phase of HALF and in WRITE, two bytes the block discards (R112, R113). -/
def misoBytes (kind : TxKind) (discarded rx : Rx) : List Byte :=
  match kind with
  | .full => [rx.b0, rx.b1]
  | .half => [discarded.b0, discarded.b1, rx.b0, rx.b1]
  | .write => [discarded.b0, discarded.b1]

/-- One bit in mode 3: MOSI and MISO change on the leading, falling edge of SCLK and hold to the trailing, rising edge, where they
are sampled (R116). -/
def bitCycle (mosi miso : Bool) : List Levels := [⟨false, false, mosi, miso⟩, ⟨false, true, mosi, miso⟩]

/-- The cycles of a transaction, one for each bit that arrives. A transaction sends as many bits (R111 to R113: `tx` is two
bytes). -/
def bitCycles (mosi : List Bool) : List Bool → List Levels
  | [] => []
  | i :: miso => bitCycle (mosi.headD false) i ++ bitCycles mosi.tail miso

/-- The wire during one whole bracket (R110): CS falls with SCLK idle, the bits are clocked, CS rises. MOSI is at its idle level
outside the cycles, and MISO at one of two levels, `before` and `after` (log entry 16). -/
def bracket (mosiIdle before after : Bool) (mosi miso : List Bool) : List Levels :=
  ⟨false, true, mosiIdle, before⟩ :: (bitCycles mosi miso ++ [⟨true, true, mosiIdle, after⟩])

/-- The wire of a transaction of draw `draw` in which the peripheral answers `rx`: each byte most significant bit first, on MOSI
and on MISO (R71). -/
def transactionLevels (p : Params) (draw : Nat) (kind : TxKind) (tx : List Byte) (rx : Rx) : List Levels :=
  bracket p.mosiIdle (Config.misoBefore draw) (Config.misoAfter draw) ((mosiBytes kind tx).flatMap byteBits)
    ((misoBytes kind ⟨Config.misoDiscarded draw 0, Config.misoDiscarded draw 1⟩ rx).flatMap byteBits)

/-- The bits the block samples: MISO at each rising edge of SCLK with CS at 0 (R45, R116). -/
def sampledBits : List Levels → List Bool
  | [] => []
  | [_] => []
  | a :: b :: rest => if !a.sclk && b.sclk && !b.cs then b.miso :: sampledBits (b :: rest) else sampledBits (b :: rest)

/-- The bytes that sampled bits make, eight bits each (R71, R116). -/
def shiftIn : List Bool → List Byte
  | b7 :: b6 :: b5 :: b4 :: b3 :: b2 :: b1 :: b0 :: rest => bitsByte b7 b6 b5 b4 b3 b2 b1 b0 :: shiftIn rest
  | _ => []

/-- The first two bytes of a list. -/
def Rx.ofBytes (l : List Byte) : Rx := ⟨l.headD 0x00#8, l.tail.headD 0x00#8⟩

/-- The bytes a transaction captures of those shifted in: what arrives in HALF's write phase, and in WRITE, is discarded (R111
to R113). -/
def capturedBytes (kind : TxKind) (shifted : List Byte) : List Byte :=
  match kind with
  | .full => shifted
  | .half => shifted.drop 2
  | .write => []

/-- What a transaction captures from the wire. -/
def captured (kind : TxKind) (wire : List Levels) : Rx := Rx.ofBytes (capturedBytes kind (shiftIn (sampledBits wire)))

/-- The part of a transaction of a kind that stops before its end: HALF stops in its write phase or in its read phase (R112). -/
def stopPhase (inReadPhase : Bool) : TxKind → BusPhase
  | .full => .exchange
  | .half => if inReadPhase then .reading else .writing
  | .write => .writing

/-- The phase in which a transaction of draw `draw` fails, if it fails: for HALF either phase may (R112), log entry 16. -/
def failPhase (kind : TxKind) (draw : Nat) : BusPhase := stopPhase (Config.failsInReadPhase draw) kind

/-- The levels of a bracket's cycles before a phase begins: the read phase of HALF follows the 16 cycles of its write phase (R112). -/
def levelsBefore : BusPhase → Nat
  | .exchange => 0
  | .writing => 0
  | .reading => 32

/-- The wire of a transaction broken off in a phase: what came until then, at most to the end of the phase (two bytes, so 32
levels), and then CS rises (R110, R115). So no read phase happens when the write phase fails (R112). -/
def brokenOff (p : Params) (draw : Nat) (phase : BusPhase) (after : Nat) (wire : List Levels) : List Levels :=
  wire.take (1 + (levelsBefore phase + after % 33)) ++ [⟨true, true, p.mosiIdle, Config.misoAfter draw⟩]

/-- The wire of a failed transaction (R112, R115). Where in its phase it broke off, and what was on MISO, are free values, log
entry 16; nothing is captured from it. -/
def failedLevels (p : Params) (draw : Nat) (kind : TxKind) (tx : List Byte) : List Levels :=
  brokenOff p draw (failPhase kind draw) (Config.failedAfter draw)
    (transactionLevels p draw kind tx ⟨Config.misoDiscarded draw 2, Config.misoDiscarded draw 3⟩)

/-- The wire of a recorded event: of a completed transaction, or of one that failed. -/
def eventLevels (p : Params) (draw : Nat) (e : Event) : List Levels :=
  match e.result with
  | .bytes rx => transactionLevels p draw e.kind e.tx (Rx.ofBytes rx)
  | .ioFail => failedLevels p draw e.kind e.tx

/-- The SCLK cycles of a transaction of each kind (R281). -/
def sclkCycles : TxKind → Nat
  | .full => 16
  | .half => 32
  | .write => 16

/-- The rising edges of SCLK in a sequence of levels. -/
def risingEdges : List Levels → Nat
  | [] => 0
  | [_] => 0
  | a :: b :: rest => (if !a.sclk && b.sclk then 1 else 0) + risingEdges (b :: rest)

end Sys2Proof.Machine
end

