-- ==== Sys2Proof/Machine/Ops.lean ====
section
/-! DEFINITION. The operations the commands and the agents share: reading a register, drawing from the outside, one bus
transaction, issue, commit, an error's commit, reset, and the answers of the window. -/

namespace Sys2Proof.Machine

open Sys2Proof

/-- The word a register of the window holds (R22, R23 to R40). No read has a side effect (R64). -/
def Reg.read (s : State) : Reg → Word
  | .cmd => s.cmd
  | .arg => s.arg
  | .status => s.status.word
  | .raw => rawWord s.raw
  | .ohms => s.ohms
  | .temp => s.temp
  | .cfg => cfgWord s.cfgw s.cfgrb
  | .rxd => rxdWord s.rxd
  | .cal => s.params.cal
  | .info => infoWord s.params

/-! Commit and errors. -/

/-- The part of the commit step that every command shares (R80): ERR, STICKY, BUSY and PHASE. -/
def State.finish (code : ErrCode) (s : State) : State :=
  { s with
    status := { s.status with busy := false, err := code, sticky := stickyAfter s.status.sticky code }
    phase := .idle }

/-- `raise E(code)` (R231, R233, R243): the command ends with its code, and no register is written but those of the shared
commit. The block has no vector, no saved state and no return (R243, R244). -/
def State.raise (code : ErrCode) (s : State) : State := s.finish code

/-- `r[STATE] <- p`. -/
def State.setProto (p : ProtoState) (s : State) : State := { s with status := { s.status with state := p } }

/-- `r[FAULT] <- b`. -/
def State.setFault (b : Bool) (s : State) : State := { s with status := { s.status with fault := b } }

/-- `r[OOR] <- b`. -/
def State.setOor (b : Bool) (s : State) : State := { s with status := { s.status with oor := b } }

/-- `r[READY] <- b`. -/
def State.setReady (b : Bool) (s : State) : State := { s with status := { s.status with ready := b } }

/-! Issue. -/

/-- The issue of command word `w` (R79): one atomic step. -/
def State.issue (w : Word) (s : State) : State :=
  { s with
    cmd := w
    opl := { s.opl with w := w, arg := s.arg, failed := false }
    status := { s.status with busy := true }
    phase := .exec (opcOf w) 0 }

/-! Free draws. -/

/-- The oracle's answer to the next transaction (R72): the next one laid down, or a free value. -/
def State.spiAnswer (kind : TxKind) (tx : List Byte) (s : State) : OracleAnswer :=
  match s.spiIn with
  | a :: _ => a
  | [] => Config.oracle s.draws s.hist kind tx

/-- `Sample(RDY)` (R44): the next level laid down, or a free value. -/
def State.rdyLevel (s : State) : Bool :=
  match s.rdyIn with
  | b :: _ => b
  | [] => Config.readyLevel s.draws

/-- The state after one sample of RDY. -/
def State.sampled (s : State) : State := { s with rdyIn := s.rdyIn.tail, draws := s.draws + 1 }

/-! Transactions. -/

/-- The bytes the history records for a completed transaction: empty for WRITE, the two captured bytes otherwise (R47). -/
def received (kind : TxKind) (rx : Rx) : List Byte :=
  match kind with
  | .full => [rx.b0, rx.b1]
  | .half => [rx.b0, rx.b1]
  | .write => []

/-- Which part of the transaction is on the bus when it hangs (R46); for HALF the spec gives no answer, log entry 5. -/
def hangPhase (kind : TxKind) (draw : Nat) : BusPhase := stopPhase (Config.hangInReadPhase draw) kind

/-- The bus after a bracket has closed (R45, R110): CS deasserted, SCLK idle, no transaction in flight. -/
def State.closeBracket (s : State) : State :=
  { s with xf := none, cs := true, sclk := true, mosi := s.params.mosiIdle }

/-- One draw of the oracle has been used. -/
def State.drew (s : State) : State := { s with spiIn := s.spiIn.tail, draws := s.draws + 1 }

/-- A transaction that completed with the bytes `rx` (R111 to R113): its event, its bytes in OPL, PHASE advanced (R21). -/
def State.txDone (kind : TxKind) (tx : List Byte) (rx : Rx) (s : State) : State :=
  { s.drew.closeBracket with
    hist := s.hist ++ [⟨kind, tx, .bytes (received kind rx)⟩]
    opl := s.opl.store kind s.phase.step rx
    phase := s.phase.advance }

/-- A transaction that failed (R115): the bracket closes, its event is recorded; the command raises IO at its next step. -/
def State.txFail (kind : TxKind) (tx : List Byte) (s : State) : State :=
  { s.drew.closeBracket with
    hist := s.hist ++ [⟨kind, tx, .ioFail⟩]
    opl := { s.opl with failed := true } }

/-- A transaction that hangs (R114): CS stays 0, XF stays set, no event. The levels SCLK and MOSI stop at are free, log
entry 5. -/
def State.txHang (kind : TxKind) (tx : List Byte) (s : State) : State :=
  { s.drew with
    xf := some ⟨kind, tx, hangPhase kind s.draws⟩
    cs := false
    sclk := Config.hangSclk s.draws
    mosi := Config.hangMosi s.draws }

/-- The bytes the next transaction captures when the peripheral answers `rx`: what the block shifts in from MISO, sampled on the
rising edges of SCLK, most significant bit first (R71, R116). -/
def State.shiftedIn (kind : TxKind) (tx : List Byte) (rx : Rx) (s : State) : Rx :=
  captured kind (transactionLevels s.params s.draws kind tx rx)

/-- One bus transaction, one atomic step (R110): the primitives `SpiFull`, `SpiHalf` and `SpiWrite` (R111 to R113). -/
def State.transact (kind : TxKind) (tx : List Byte) (s : State) : State :=
  match s.spiAnswer kind tx with
  | .done rx0 rx1 => s.txDone kind tx (s.shiftedIn kind tx ⟨rx0, rx1⟩)
  | .ioFail => s.txFail kind tx
  | .hang => s.txHang kind tx

/-- The next step of a command that performs one transaction and then commits; a failed transaction raises IO (R115). -/
def oneTransaction (kind : TxKind) (tx : List Byte) (commit : State → State) (s : State) : State :=
  if s.opl.failed then s.raise .io
  else
    match s.phase.step with
    | 0 => s.transact kind tx
    | _ + 1 => commit s

/-- The next step of a command that performs two transactions and then commits. `onFail` is the commit of its IO error: no
transaction follows one that failed (R78, R115). -/
def twoTransactions (kind1 : TxKind) (tx1 : List Byte) (kind2 : TxKind) (tx2 : List Byte)
    (onFail commit : State → State) (s : State) : State :=
  if s.opl.failed then onFail s
  else
    match s.phase.step with
    | 0 => s.transact kind1 tx1
    | 1 => s.transact kind2 tx2
    | _ + 2 => commit s

/-! Reset. -/

/-- The answer reset gives to a held CMD write (R261). -/
def heldAnswer : Option Word → List Answer
  | none => []
  | some _ => [.busErr]

/-- RST asserted (R260, R261): every piece of the block's state at its reset value, a running command abandoned, a held CMD
write answered BUSERR, no event. `H` is not reset (R47), and the world around the block goes on. -/
def State.assertReset (s : State) : State :=
  { State.powerOn s.params with
    rst := true
    hist := s.hist
    answers := s.answers ++ heldAnswer s.held
    program := s.program
    turns := s.turns
    spiIn := s.spiIn
    rdyIn := s.rdyIn
    draws := s.draws }

/-- The reset input goes to a level (R260). -/
def State.resetTurn (level : Bool) (s : State) : State :=
  if level then s.assertReset else { s with rst := false }

/-! The window. -/

/-- The host's access completes with an answer (R60). -/
def State.answer (a : Answer) (s : State) : State := { s with answers := s.answers ++ [a] }

/-- What a read of `n` bytes at an offset is answered (R60, R61, R63, R260). -/
def readAnswer (s : State) (off n : Nat) : Answer :=
  if s.rst || !acceptedShape off n then .busErr
  else
    match Reg.ofOffset off with
    | some r => .data (r.read s)
    | none => .busErr

/-- What a write of `n` bytes at an offset does (R23, R24, R61, R63, R65, R260): a CMD write issues, or is held while BUSY. -/
def writeWindow (off n : Nat) (v : Word) (s : State) : State :=
  if s.rst || !acceptedShape off n then s.answer .busErr
  else
    match Reg.ofOffset off with
    | some .cmd => if s.status.busy then { s with held := some v } else (s.issue v).answer .ok
    | some .arg => { s with arg := v }.answer .ok
    | some .status => s.answer .busErr
    | some .raw => s.answer .busErr
    | some .ohms => s.answer .busErr
    | some .temp => s.answer .busErr
    | some .cfg => s.answer .busErr
    | some .rxd => s.answer .busErr
    | some .cal => s.answer .busErr
    | some .info => s.answer .busErr
    | none => s.answer .busErr

/-- A held CMD write completes once no command runs, and issues its command (R65). -/
def State.completeHeld (w : Word) (s : State) : State :=
  if s.status.busy then s else ({ s with held := none }.issue w).answer .ok

/-- The state in which the controller's next step runs command word `w`: the state right after its issue (R79), with the
block out of reset, no transaction in flight and the controller to move. -/
def State.issuedNext (w : Word) (s : State) : State :=
  { s.issue w with rst := false, xf := none, cs := true, turns := .ctrl :: s.turns }

end Sys2Proof.Machine
end

