-- ==== Sys2Proof/Machine/Decoder.lean ====
section
/-! DEFINITION. The conversion decoder (R180 to R188) and the command DECODE. -/

namespace Sys2Proof.Machine

open Sys2Proof

/-- The 15-bit ADC code of a raw value (R182): bits 15..1. -/
def code15 (raw : BitVec 16) : Nat := (raw >>> 1).toNat

/-- The ohms value of R181: the exact product, floor-divided by 2^15. -/
def decodedOhms (cal : Word) (raw : BitVec 16) : Word := BitVec.ofNat 32 ((code15 raw * cal.toNat) >>> 15)

/-- DECODE (R180): RAW is not written. -/
def execDecode (s : State) : Outcome :=
  .next { (s.finish .ok).setFault (faultBit s.opl.rawOperand) with
    ohms := decodedOhms s.params.cal s.opl.rawOperand }

end Sys2Proof.Machine
end

