-- ==== Sys2Proof/Machine/Lookup.lean ====
section
/-! DEFINITION. The lookup engine (R195 to R204) and the command LOOKUP. -/

namespace Sys2Proof.Machine

open Sys2Proof

/-- The interpolation of R196 between two neighbouring samples: exact integers, the quotient truncated toward zero (R200). -/
def interpolate (a b : Sample) (x : Nat) : Int :=
  a.t.toInt + Int.tdiv (((x : Int) - a.r.toNat) * (b.t.toInt - a.t.toInt)) ((b.r.toNat : Int) - a.r.toNat)

/-- The interpolation in the bracket of R199: the last pair of neighbours whose left key is at most `x`, the last pair of
the table for an `x` beyond it. (A table of fewer than two samples is no legal instance, R202.) -/
def inTable : List Sample → Nat → Int
  | [], _ => 0
  | [a], _ => a.t.toInt
  | [a, b], x => interpolate a b x
  | a :: b :: c :: rest, x => if b.r.toNat ≤ x then inTable (b :: c :: rest) x else interpolate a b x

/-- `Lookup` of R196: the temperature, and whether the ohms value was clamped (R198). -/
def lookupTable (table : List Sample) (x : Nat) : Int × Bool :=
  match table.head?, table.getLast? with
  | some first, some last =>
    if x < first.r.toNat then (first.t.toInt, true)
    else if last.r.toNat < x then (last.t.toInt, true)
    else (inTable table x, false)
  | _, _ => (0, true)

/-- TEMP: the temperature in two's complement (R197). -/
def lookupTemp (p : Params) (x : Word) : Word := BitVec.ofInt 32 (lookupTable p.table x.toNat).1

/-- OOR of a lookup (R31, R198). -/
def lookupOor (p : Params) (x : Word) : Bool := (lookupTable p.table x.toNat).2

/-- LOOKUP (R195). -/
def execLookup (s : State) : Outcome :=
  .next { (s.finish .ok).setOor (lookupOor s.params s.opl.ohmsOperand) with
    temp := lookupTemp s.params s.opl.ohmsOperand }

end Sys2Proof.Machine
end

