-- ==== Sys2Proof/Machine/Protocol.lean ====
section
/-! DEFINITION. The register protocol (R140 to R175): CONFIGURE, IS_READY, READ_RAW, SOFT_RESET. Each definition is the
controller's next step of its command. -/

namespace Sys2Proof.Machine

open Sys2Proof

/-- The commit of CONFIGURE when a transaction failed (R145, R150). -/
def configureFails (b : Byte) (s : State) : State := { (s.raise .io).setProto .unconfigured with cfgw := b }

/-- The commit of CONFIGURE when both transactions completed: verified or not (R145, R148, R150). -/
def configureCommits (b : Byte) (s : State) : State :=
  if verifyPasses s.params b s.opl.rx2.b1 then
    { (s.finish .ok).setProto .configured with cfgw := b, cfgrb := s.opl.rx2.b1 }
  else { (s.raise .verify).setProto .unconfigured with cfgw := b, cfgrb := s.opl.rx2.b1 }

/-- CONFIGURE (R145 to R147). -/
def execConfigure (cfg : Cfg) (s : State) : Outcome :=
  .next (twoTransactions .write (writeBytes (writeAddr addrConfig) (pack s.params cfg)) .full (readBytes addrConfig)
    (configureFails (pack s.params cfg)) (configureCommits (pack s.params cfg)) s)

/-- IS_READY (R155, R156). -/
def execIsReady (s : State) : Outcome :=
  .next (if s.params.hasReadyLine then (s.sampled.finish .ok).setReady (readyFlag s.params s.rdyLevel)
    else s.raise .noReady)

/-- READ_RAW and MEASURE end with STATE before any transaction when no configuration has been made (R163, R218, R237). -/
def refusedByState (s : State) : Bool := decide (s.phase.step = 0) && decide (s.status.state = .unconfigured)

/-- The commit of READ_RAW (R160). -/
def commitRaw (s : State) : State :=
  { ((s.finish .ok).setFault (faultBit s.opl.rawRead)).setProto .reading with raw := s.opl.rawRead }

/-- READ_RAW (R160 to R164): the MSB register first, then the LSB register. -/
def execReadRaw (s : State) : Outcome :=
  .next (if refusedByState s then s.raise .state
    else twoTransactions .full (readBytes addrMsb) .full (readBytes addrLsb) (State.raise .io) commitRaw s)

/-- SOFT_RESET (R165): its commit replaces the STICKY update of R80. -/
def execSoftReset (s : State) : Outcome :=
  .next { s.finish .ok with
    status := Status.reset
    raw := 0#16
    ohms := 0#32
    temp := 0#32
    cfgw := 0#8
    cfgrb := 0#8
    rxd := 0#8 }

end Sys2Proof.Machine
end

