-- ==== Sys2Proof/Machine/Measure.lean ====
section
/-! DEFINITION. The fused command MEASURE (R215 to R220). -/

namespace Sys2Proof.Machine

open Sys2Proof

/-- The ohms value a MEASURE decodes from the raw value it read (R215). -/
def measuredOhms (s : State) : Word := decodedOhms s.params.cal s.opl.rawRead

/-- The commit of MEASURE (R215): what READ_RAW commits, decoded and looked up. -/
def commitMeasure (s : State) : State :=
  { (commitRaw s).setOor (lookupOor s.params (measuredOhms s)) with
    ohms := measuredOhms s
    temp := lookupTemp s.params (measuredOhms s) }

/-- MEASURE (R215). -/
def execMeasure (s : State) : Outcome :=
  .next (if refusedByState s then s.raise .state
    else twoTransactions .full (readBytes addrMsb) .full (readBytes addrLsb) (State.raise .io) commitMeasure s)

end Sys2Proof.Machine
end

