-- ==== Sys2Proof/Machine/Transactor.lean ====
section
/-! DEFINITION. The raw register commands of the SPI transactor (R118 to R131): RW_HALF, XFER, WRITE_REG, READ_REG. Each
definition is the controller's next step of its command. -/

namespace Sys2Proof.Machine

open Sys2Proof

/-- The commit of the commands whose result is the second received byte (R120, R122, R128). -/
def commitRxd (s : State) : State := { s.finish .ok with rxd := s.opl.rx1.b1 }

/-- RW_HALF (R118, R119). -/
def execRwHalf (a v : Byte) (s : State) : Outcome :=
  .next (oneTransaction .half (writeBytes a v) commitRxd s)

/-- XFER (R121). -/
def execXfer (a : Byte) (s : State) : Outcome :=
  .next (oneTransaction .full (readBytes a) commitRxd s)

/-- WRITE_REG (R124): it has no result byte (R126). -/
def execWriteReg (i v : Byte) (s : State) : Outcome :=
  .next (oneTransaction .write (writeBytes (writeAddr i) v) (State.finish .ok) s)

/-- READ_REG (R127). -/
def execReadReg (i : Byte) (s : State) : Outcome :=
  .next (oneTransaction .full (readBytes i) commitRxd s)

end Sys2Proof.Machine
end

