-- ==== Sys2Proof/Machine/Dispatch.lean ====
section
/-! DEFINITION. The next step of the running command, one arm per command. -/

namespace Sys2Proof.Machine

open Sys2Proof

def exec (i : Instr) (s : State) : Host.Outcome State Fault Refusal :=
  match i with
  | .configure cfg => Sys2Proof.Machine.execConfigure cfg s
  | .isReady => Sys2Proof.Machine.execIsReady s
  | .readRaw => Sys2Proof.Machine.execReadRaw s
  | .decode => Sys2Proof.Machine.execDecode s
  | .lookup => Sys2Proof.Machine.execLookup s
  | .measure => Sys2Proof.Machine.execMeasure s
  | .rwHalf a v => Sys2Proof.Machine.execRwHalf a v s
  | .xfer a => Sys2Proof.Machine.execXfer a s
  | .writeReg idx v => Sys2Proof.Machine.execWriteReg idx v s
  | .readReg idx => Sys2Proof.Machine.execReadReg idx s
  | .softReset => Sys2Proof.Machine.execSoftReset s

end Sys2Proof.Machine
end

