-- ==== Sys2Proof/Machine/HostAgent.lean ====
section
/-! DEFINITION. The host (R20, R60 to R65) and its program language (R100, R101). -/

namespace Sys2Proof.Machine

open Sys2Proof

/-- `MemRead(addr, n)` (R60). -/
def hostRead (addr n : Nat) (s : State) : Outcome :=
  match windowOffset s.params addr with
  | none => .fault .outsideWindow
  | some off => .next (s.answer (readAnswer s off n))

/-- `MemWrite(addr, n, v)` (R60). -/
def hostWrite (addr n : Nat) (v : Word) (s : State) : Outcome :=
  match windowOffset s.params addr with
  | none => .fault .outsideWindow
  | some off => .next (writeWindow off n v s)

/-- The answer of `LW 0x08`, the STATUS read of the host loops (R101). -/
def statusAnswer (s : State) : Answer := readAnswer s Reg.status.offset 4

/-- WAIT goes on until the value read has bit 0 (BUSY) = 0 (R101). A read answered BUSERR gave no value. -/
def waitDone : Answer → Bool
  | .data v => !v.getLsbD 0
  | .ok => false
  | .busErr => false

/-- POLL_READY goes on until bit 10 (READY) of the value read is 1 or bits 7:4 (ERR) are not 0 (R101). -/
def pollDone : Answer → Bool
  | .data v => v.getLsbD 10 || v.extractLsb' 4 4 != 0#4
  | .ok => false
  | .busErr => false

/-- The next operation of the host's program, `rest` what follows it. WAIT and POLL_READY are loops of the host (R101).
DESIGN CHOICE: after a plain read or write that is answered BUSERR the host goes on with `rest`; R252 leaves what it does then to
its platform (log entry 23). -/
def hostOperation (op : HostOp) (rest : List HostOp) (s : State) : Outcome :=
  match op with
  | .read addr n => hostRead addr n { s with program := rest }
  | .write addr n v => hostWrite addr n v { s with program := rest }
  | .wait =>
    .next ({ s with program := if waitDone (statusAnswer s) then rest else .wait :: rest }.answer (statusAnswer s))
  | .pollReady => .next (writeWindow Reg.cmd.offset 4 (encode .isReady) { s with program := .wait :: .pollCheck :: rest })
  | .pollCheck =>
    .next ({ s with program := if pollDone (statusAnswer s) then rest else .pollReady :: rest }.answer (statusAnswer s))

/-- The host's turn. While a CMD write of it is held it has no step until the running command commits (R65). -/
def hostTurn (s : State) : Outcome :=
  match s.held with
  | some w => .next (s.completeHeld w)
  | none =>
    match s.program with
    | [] => .next s
    | op :: rest => hostOperation op rest s

/-! The program language. -/

/-- `SW off, v32` (R100). -/
def storeWord (p : Params) (off : Nat) (v : Word) : HostOp := .write (p.base + off) 4 v

/-- `LW off` (R100). DESIGN CHOICE: R100 says that the program names the value it reads and gives no syntax for the name; the line
carries none, the value stands only at its place in the record State.answers, and no later line refers to it (log entry 22). -/
def loadWord (p : Params) (off : Nat) : HostOp := .read (p.base + off) 4

/-- A command line of R99: `SW 0x00, <encoding of the command>` (R100). -/
def commandLine (p : Params) (i : Instr) : HostOp := storeWord p Reg.cmd.offset (encode i)

/-- The lines a host program is written in: the accesses and commands of R100 and the pseudo-instructions of R101. -/
inductive Line where
  | sw (off : Nat) (v : Word)
  | lw (off : Nat)
  | command (i : Instr)
  | wait
  | decodeImm (r : Word)
  | lookupImm (x : Word)
  | pollReady
  | startConversion (vbias : Bool) (wire : Wire) (filter : Filter)
  | readWrite (a v : Byte)
  | transfer (a : Byte)
  | writeRegister (i v : Byte)
  | readRegister (i : Byte)
  | read
deriving DecidableEq, Repr

/-- The expansions of R100 and R101. -/
def Line.expand (p : Params) : Line → List HostOp
  | .sw off v => [storeWord p off v]
  | .lw off => [loadWord p off]
  | .command i => [commandLine p i]
  | .wait => [.wait]
  | .decodeImm r => [storeWord p Reg.arg.offset ((r.extractLsb' 0 16).setWidth 32), commandLine p .decode]
  | .lookupImm x => [storeWord p Reg.arg.offset x, commandLine p .lookup]
  | .pollReady => [.pollReady]
  | .startConversion vbias wire filter =>
    [commandLine p (.configure { vbias := vbias, cmode := false, oneShot := true, wire := wire, filter := filter })]
  | .readWrite a v => [commandLine p (.rwHalf a v)]
  | .transfer a => [commandLine p (.xfer a)]
  | .writeRegister i v => [commandLine p (.writeReg i v)]
  | .readRegister i => [commandLine p (.readReg i)]
  | .read => [commandLine p .measure]

/-- The operations of a whole host program. -/
def expandProgram (p : Params) (lines : List Line) : List HostOp := lines.flatMap (Line.expand p)

end Sys2Proof.Machine
end

