-- ==== Sys2Proof/Machine/Agents.lean ====
section
/-! DEFINITION. Which agent moves, and what its step is (R20, R77 to R80, R261). -/

namespace Sys2Proof.Machine

open Sys2Proof

/-- The next step of the running command: the command that OPL.w decodes to, or the ILLEGAL error (R79, R96, R234). -/
def runCommand (s : State) : Outcome :=
  match decodeWord s.opl.w with
  | .command i => exec i s
  | .illegal _ => .next (s.raise .illegal)

/-- Whether the controller has a step: a command runs, the block is out of reset and no transaction hangs (R21, R114, R260). -/
def State.controllerReady (s : State) : Bool :=
  !s.rst && decide (s.phase ≠ .idle) && decide (s.xf = none)

/-- The controller's turn. With no step to take it waits: for a command, or, in a hang, for ever (R114, R263). -/
def controllerTurn (s : State) : Outcome :=
  if s.controllerReady then runCommand s else .next s

/-- One step of the machine. A turn that is laid down is taken; with none laid down the controller moves while it has a step,
and the host moves otherwise (log entry 2). An illegal instance does not run (R7, R265). -/
def agentStep (s : State) : Outcome :=
  if s.params.legal then
    match s.turns with
    | .rst level :: rest => .next ({ s with turns := rest }.resetTurn level)
    | .ctrl :: rest => controllerTurn { s with turns := rest }
    | .host :: rest => hostTurn { s with turns := rest }
    | [] => if s.controllerReady then runCommand s else hostTurn s
  else .refused .illegalInstance

/-- `k` turns of the controller: how a command runs when nothing comes between its steps. -/
def controllerTurns : Nat → State → Outcome
  | 0, s => .next s
  | k + 1, s =>
    match controllerTurn s with
    | .next t => controllerTurns k t
    | .fault f => .fault f
    | .refused r => .refused r

/-- A command run from its issue to its commit with nothing between its steps: no command has more than two transactions and
a commit (R21, R51). -/
def commandRun (w : Word) (s : State) : Outcome := controllerTurns 3 (s.issue w)

end Sys2Proof.Machine
end

