-- ==== Sys2Proof/Machine/Step.lean ====
section
/-! DEFINITION. One step of the machine, and the state whose next step runs a given command word. -/

namespace Sys2Proof.Machine

open Sys2Proof

/-- One step: the agent whose turn it is moves. -/
def step (s : State) : Host.Outcome State Fault Refusal := agentStep s

/-- `s` with a command word placed where the controller fetches its next command: OPL, as its issue leaves it (R79). The block
fetches nothing from a memory (R21, R263); log entry 1. -/
def State.withFetchWord (s : State) (nbits w : Nat) : State := s.issuedNext (tableWord nbits w)

end Sys2Proof.Machine
end

