-- ==== Sys2Proof/Safety.lean ====
section
/-! DEFINITION. What holds of every state a run reaches, and what counts as a safe run. -/

namespace Sys2Proof.Machine

open Sys2Proof

/-- The bus transactions of a command in order, each with the bytes it sends (R51 and the commands' rules): CONFIGURE R145, READ_RAW
R160, MEASURE R215, RW_HALF R118, XFER R121, WRITE_REG R124, READ_REG R127. -/
def busTraffic (p : Params) : Instr → List (TxKind × List Byte)
  | .configure cfg => [(.write, [0x80#8, pack p cfg]), (.full, [0x00#8, 0x00#8])]
  | .isReady => []
  | .readRaw => [(.full, [0x01#8, 0x00#8]), (.full, [0x02#8, 0x00#8])]
  | .decode => []
  | .lookup => []
  | .measure => [(.full, [0x01#8, 0x00#8]), (.full, [0x02#8, 0x00#8])]
  | .rwHalf a v => [(.half, [a, v])]
  | .xfer a => [(.full, [a, 0x00#8])]
  | .writeReg i v => [(.write, [0x80#8 ||| i, v])]
  | .readReg i => [(.full, [i, 0x00#8])]
  | .softReset => []

/-- How many bus transactions a command performs when all of them complete (R51, R282). -/
def transactionsOf : Instr → Nat
  | .configure _ => 2
  | .isReady => 0
  | .readRaw => 2
  | .decode => 0
  | .lookup => 0
  | .measure => 2
  | .rwHalf _ _ => 1
  | .xfer _ => 1
  | .writeReg _ _ => 1
  | .readReg _ => 1
  | .softReset => 0

/-- The transactions of the command in a command word; an illegal word performs none (R96). -/
def wordTransactions (w : Word) : Nat :=
  match decodeWord w with
  | .command i => transactionsOf i
  | .illegal _ => 0

/-- Every piece of the block's state at its reset value (R49), with no CMD write held (R261). -/
structure State.AtReset (s : State) : Prop where
  regs : s.cmd = 0#32 ∧ s.arg = 0#32 ∧ s.raw = 0#16 ∧ s.ohms = 0#32 ∧ s.temp = 0#32 ∧ s.cfgw = 0#8 ∧ s.cfgrb = 0#8 ∧
    s.rxd = 0#8
  status : s.status = Status.reset
  phase : s.phase = .idle
  bus : s.xf = none ∧ s.cs = true ∧ s.sclk = true ∧ s.mosi = s.params.mosiIdle
  held : s.held = none

/-- The invariant of the block. -/
structure State.Inv (s : State) : Prop where
  /-- The instance is legal (R7). -/
  legal : s.params.legal = true
  /-- BUSY is 1 exactly when PHASE is not IDLE (R26). -/
  busy : s.status.busy = true ↔ s.phase ≠ .idle
  /-- CS is deasserted exactly when no transaction is in flight (R43, R46). -/
  cs : s.cs = true ↔ s.xf = none
  /-- A transaction in flight is the running command's (R46). -/
  flight : s.xf ≠ none → s.phase ≠ .idle
  /-- Between transactions SCLK and MOSI are idle (R45). -/
  idleBus : s.xf = none → s.sclk = true ∧ s.mosi = s.params.mosiIdle
  /-- PHASE names the opcode in OPL, and CMD holds the running command's word (R21, R23, R79). -/
  running : s.phase = .idle ∨ s.phase = .exec (opcOf s.opl.w) s.phase.step ∧ s.cmd = s.opl.w
  /-- No command completes more transactions than it has, so never more than two (R21, R51). -/
  step : s.phase.step ≤ wordTransactions s.opl.w
  /-- READ_RAW and MEASURE perform no transaction while UNCONFIGURED (R163, R218). -/
  guarded : s.status.state = .unconfigured →
    decodeWord s.opl.w = .command .readRaw ∨ decodeWord s.opl.w = .command .measure → s.phase.step = 0
  /-- While RST is asserted every piece of state holds its reset value (R260). -/
  reset : s.rst = true → s.AtReset

/-- Every access of the host's program is addressed to the window (R60). -/
def HostOp.inWindow (p : Params) : HostOp → Prop
  | .read addr _ => p.base ≤ addr ∧ addr < p.base + 64
  | .write addr _ _ => p.base ≤ addr ∧ addr < p.base + 64
  | .wait => True
  | .pollReady => True
  | .pollCheck => True

/-- A safe state: the next step does not stop. The instance is legal and the host keeps to the window (R7, R60). -/
def State.Safe (s : State) : Prop := s.params.legal = true ∧ ∀ op ∈ s.program, op.inWindow s.params

/-- A command is running and nothing of its work is done yet: the state right after its issue (R79). -/
structure State.JustIssued (s : State) (i : Instr) : Prop where
  phase : s.phase = .exec i.opc 0
  failed : s.opl.failed = false

end Sys2Proof.Machine
end

