-- ==== Sys2Proof/Certificates/Slice0/Obligations.lean ====
section
/-! DEFINITION. The statements about the controller, one def Obligations.<Name> each, made from the rules R<n> of spec/. -/

namespace Sys2Proof.Certificates

open Sys2Proof Sys2Proof.Machine

/-- `s` after the transactions the events `es` record, with nothing else changed: the bus is idle again (R45, R110), the history
is longer (R47) and each transaction has used one draw of the oracle. -/
def afterBus (s : State) (es : List Event) : State :=
  { s with
    hist := s.hist ++ es
    xf := none
    cs := true
    sclk := true
    mosi := s.params.mosiIdle
    spiIn := s.spiIn.drop es.length
    draws := s.draws + es.length }

/-- The transactions a command performs when all of them complete, in order (the table of R51). -/
def transactionKinds : Instr → List TxKind
  | .configure _ => [.write, .full]
  | .isReady => []
  | .readRaw => [.full, .full]
  | .decode => []
  | .lookup => []
  | .measure => [.full, .full]
  | .rwHalf _ _ => [.half]
  | .xfer _ => [.full]
  | .writeReg _ _ => [.write]
  | .readReg _ => [.full]
  | .softReset => []

/-- The interpolated temperature of R196 between two samples, in exact integers. -/
def interpolated (a b : Sample) (x : Nat) : Int :=
  a.t.toInt + Int.tdiv (((x : Int) - a.r.toNat) * (b.t.toInt - a.t.toInt)) ((b.r.toNat : Int) - a.r.toNat)

end Sys2Proof.Certificates

open Sys2Proof Sys2Proof.Machine Sys2Proof.Certificates

/-! Encoding. -/

/-- Words of 95_test_vectors.md section 2.1 decode to the commands they stand for, or are illegal. -/
def Obligations.SpecWordsDecode : Prop :=
  decodeWord 0x100000C9#32 = .command (.configure ⟨true, true, false, .three, .hz50⟩) ∧
  decodeWord 0x10000000#32 = .command (.configure ⟨false, false, false, .two, .hz60⟩) ∧
  decodeWord 0x100000B1#32 = .command (.configure ⟨true, false, true, .four, .hz50⟩) ∧
  decodeWord 0x7000FFFF#32 = .command (.rwHalf 0xFF#8 0xFF#8) ∧
  decodeWord 0x8000FF00#32 = .command (.xfer 0xFF#8) ∧
  decodeWord 0x90007FFF#32 = .command (.writeReg 0x7F#8 0xFF#8) ∧
  decodeWord 0xA0007F00#32 = .command (.readReg 0x7F#8) ∧
  decodeWord 0xB0000000#32 = .command .softReset ∧
  (∃ why, decodeWord 0x00000000#32 = .illegal why) ∧
  (∃ why, decodeWord 0x10000019#32 = .illegal why) ∧
  (∃ why, decodeWord 0x90008000#32 = .illegal why)

/-- Every well-formed command, with every operand at every value it admits, is what its word decodes to. -/
def Obligations.DecodeOfEncode : Prop :=
  ∀ i : Instr, i.wf = true → decodeWord (encode i) = .command i

/-- A word that decodes to a command is that command's only word, and the command is well-formed: no bit is dropped (R98). -/
def Obligations.EncodeOfDecode : Prop :=
  ∀ (w : Word) (i : Instr), decodeWord w = .command i → i.wf = true ∧ encode i = w

/-- R93, R98: the decoder agrees with the eleven match and mask rows, and takes A and V where the patterns have them; every word
is one row's command or illegal, and no word matches two rows. -/
def Obligations.DecodeMatchesOpcodeRows : Prop :=
  (∀ (w : Word) (row : OpcodeRow), row ∈ opcodeRows →
    ((∃ i, decodeWord w = .command i ∧ i.opc = row.opc ∧ i.aField = w.extractLsb' 8 8 ∧ i.vField = w.extractLsb' 0 8) ↔
      w &&& row.mask = row.value ∧ (row.opc = 0x1#4 → w.extractLsb' 3 2 ≠ 0b11#2))) ∧
  (∀ (w : Word) (i : Instr), decodeWord w = .command i → ∃ row ∈ opcodeRows, row.opc = i.opc) ∧
  (∀ (w : Word) (r q : OpcodeRow), r ∈ opcodeRows → q ∈ opcodeRows → r.hits w = true → q.hits w = true → r = q)

/-- R96: a word is illegal exactly under the five conditions, and then its command ends at once with ILLEGAL: no transaction,
and no register changed but CMD and the shared fields of the commit. -/
def Obligations.IllegalWordsEndIllegal : Prop :=
  (∀ w : Word, (∃ why, decodeWord w = .illegal why) ↔
    ((opcOf w = 0x0#4 ∨ 0xC ≤ (opcOf w).toNat) ∨
      rsvOf w ≠ 0#12 ∨
      ((opcOf w).toNat ∈ [1, 2, 3, 4, 5, 6, 11] ∧ aOf w ≠ 0#8) ∨
      ((opcOf w).toNat ∈ [2, 3, 4, 5, 6, 8, 10, 11] ∧ vOf w ≠ 0#8) ∨
      (opcOf w = 0x1#4 ∧ (w.extractLsb' 3 2 = 0b11#2 ∨ w.extractLsb' 1 2 ≠ 0#2)) ∨
      ((opcOf w).toNat ∈ [9, 10] ∧ (aOf w).msb = true))) ∧
  (∀ (w : Word) (why : Illegal) (s : State), decodeWord w = .illegal why → s.rst = false → s.xf = none →
    commandRun w s = .next { s with
      cmd := w
      opl := { s.opl with w := w, arg := s.arg, failed := false }
      status := { s.status with busy := false, err := .illegal, sticky := true }
      phase := .idle })

/-- R141: the configuration CONFIGURE takes from the bits of its word. -/
def Obligations.ConfigureFieldsFromWord : Prop :=
  ∀ (w : Word) (cfg : Cfg), decodeWord w = .command (.configure cfg) →
    cfg.vbias = w.getLsbD 7 ∧ cfg.cmode = w.getLsbD 6 ∧ cfg.oneShot = w.getLsbD 5 ∧
    (w.extractLsb' 3 2 = 0b00#2 ∧ cfg.wire = .two ∨ w.extractLsb' 3 2 = 0b01#2 ∧ cfg.wire = .three ∨
      w.extractLsb' 3 2 = 0b10#2 ∧ cfg.wire = .four) ∧
    cfg.filter = (if w.getLsbD 0 then .hz50 else .hz60)

/-! Reset. -/

/-- R49: the values after reset, of every instance: each register of the window, and the hidden state. (The MOSI level is the
instance's parameter, which the spec leaves open.) -/
def Obligations.PowerOnValues : Prop :=
  ∀ p : Params, (State.powerOn p).AtReset ∧ (State.powerOn p).rst = false ∧
    Reg.status.read (State.powerOn p) = 0#32 ∧
    (∀ r : Reg, r.read (State.powerOn p) = (if r = .cal then p.cal else if r = .info then infoWord p else 0#32))

/-- R261: reset may come between any two steps, in any state. It abandons the running command, ends a hang (and nothing else
does), answers a held CMD write BUSERR, leaves `H` (R47) and the instance as they are, and puts every piece of the block's state at
its reset value. That the record of answers, the host's program, the turns, the laid-down answers and levels and the draws go on
is the model's choice (log entry 13). -/
def Obligations.ResetFromAnyState : Prop :=
  (∀ (s : State) (rest : List Turn), s.params.legal = true → s.turns = .rst true :: rest →
    ∃ t, step s = .next t ∧ t.AtReset ∧ t.rst = true ∧ t.params = s.params ∧ t.hist = s.hist ∧
      t.answers = s.answers ++ (if s.held = none then [] else [.busErr]) ∧
      t.program = s.program ∧ t.turns = rest ∧ t.spiIn = s.spiIn ∧ t.rdyIn = s.rdyIn ∧ t.draws = s.draws) ∧
  (∀ s t : State, s.Inv → s.xf ≠ none → step s = .next t → t.xf = none → ∃ rest, s.turns = .rst true :: rest)

/-- R260: while RST is asserted the state is the reset state and every access of the window is answered BUSERR and changes
nothing; released, the block stays at its reset values, IDLE, UNCONFIGURED, CS 1. Power-on leaves the same values. What the
host's program is after a BUSERR is the model's choice: it goes on with its next operation (log entry 23), and the loops of R101
go on (log entry 15). -/
def Obligations.WindowInReset : Prop :=
  (∀ p : Params, (State.powerOn p).AtReset) ∧
  (∀ s : State, s.Inv → s.rst = true →
    s.AtReset ∧
    (∀ (addr n : Nat) (rest : List Turn) (prog : List HostOp), s.turns = .host :: rest →
      s.params.base ≤ addr → addr < s.params.base + 64 →
      (s.program = .read addr n :: prog ∨ ∃ v, s.program = .write addr n v :: prog) →
      step s = .next { s with turns := rest, program := prog, answers := s.answers ++ [.busErr] }) ∧
    (∀ (rest : List Turn) (prog next : List HostOp), s.turns = .host :: rest →
      (s.program = .wait :: prog ∧ next = .wait :: prog ∨ s.program = .pollReady :: prog ∧ next = .wait :: .pollCheck :: prog ∨
        s.program = .pollCheck :: prog ∧ next = .pollReady :: prog) →
      step s = .next { s with turns := rest, program := next, answers := s.answers ++ [.busErr] }) ∧
    (∀ rest : List Turn, s.turns = .rst false :: rest →
      ∃ t, step s = .next t ∧ t.rst = false ∧ t.AtReset ∧ t.phase = .idle ∧ t.status.state = .unconfigured ∧ t.cs = true))

/-! The step. -/

/-- When the controller moves, out of reset and with no hung transaction, the step is the running command's: `exec` of the
command that the latched word decodes to. The controller moves when its turn is laid down; that it moves also when no turn is
laid down is the model's choice (log entry 2). -/
def Obligations.StepRunsRunningCommand : Prop :=
  ∀ (s : State) (i : Instr), s.params.legal = true → s.rst = false → s.phase ≠ .idle → s.xf = none →
    decodeWord s.opl.w = .command i →
    (∀ rest : List Turn, s.turns = .ctrl :: rest → step s = exec i { s with turns := rest }) ∧
    (s.turns = [] → step s = exec i s)

/-- A command word placed by `withFetchWord` is the one the next step runs, from the state its issue leaves (log entry 1). -/
def Obligations.FetchWordRunsNext : Prop :=
  ∀ (s : State) (nbits w : Nat) (i : Instr), s.params.legal = true → decodeTableWord nbits w = some i →
    step (s.withFetchWord nbits w) =
      exec i { s.issue (BitVec.ofNat 32 (w % 2 ^ nbits)) with rst := false, xf := none, cs := true }

/-- R265 with the legal column of R7: an instance that breaks it is refused, whatever its state. -/
def Obligations.IllegalInstanceRefused : Prop :=
  (∀ p : Params, p.legal = true ↔
    (2 ≤ p.table.length ∧ p.table.length ≤ 65535 ∧
      (∀ (j k : Nat) (a b : Sample), j < k → p.table[j]? = some a → p.table[k]? = some b → a.r.toNat < b.r.toNat) ∧
      0 < p.fSclk ∧ p.base % 64 = 0)) ∧
  (∀ s : State, s.params.legal = false → step s = .refused .illegalInstance)

/-- From a safe state the machine goes on, and stays safe: no command, no error, no hang, no bus error and no reset stops it. That a
bus error does not stop the host is the model's choice (log entry 23). -/
def Obligations.SafeStepsGoOn : Prop :=
  ∀ s : State, s.Safe → ∃ t, step s = .next t ∧ t.Safe

/-- The model's choice (log entry 4): a host access that is not addressed to the window of R60 stops the model. -/
def Obligations.OutsideWindowFaults : Prop :=
  ∀ (s : State) (rest : List Turn) (addr n : Nat) (prog : List HostOp), s.params.legal = true → s.turns = .host :: rest →
    s.held = none → (s.program = .read addr n :: prog ∨ ∃ v, s.program = .write addr n v :: prog) →
    (addr < s.params.base ∨ s.params.base + 64 ≤ addr) → step s = .fault .outsideWindow

/-! The invariant and the whole-machine rules. -/

/-- The invariant of the block (State.Inv: BUSY and PHASE, CS and XF, the idle bus, the latched word, the count of transactions,
the state under RST) is kept by every step. -/
def Obligations.StepKeepsInvariant : Prop :=
  ∀ s t : State, s.Inv → step s = .next t → t.Inv

/-- Every legal instance meets the invariant after power-on, the reference instance among them. -/
def Obligations.PowerOnInvariant : Prop :=
  (∀ p : Params, p.legal = true → (State.powerOn p).Inv) ∧ State.reset.Inv

/-- R85: while a command runs, the window shows what earlier commands committed, BUSY = 1, and the running command's word in
CMD. (ARG is the host's to write meanwhile, R65.) -/
def Obligations.ResultsVisibleOnlyAtCommit : Prop :=
  ∀ s t : State, s.Inv → step s = .next t → t.phase ≠ .idle →
    t.status = { s.status with busy := true } ∧ t.cmd = t.opl.w ∧
    (∀ r : Reg, r ≠ .cmd → r ≠ .arg → r ≠ .status → r.read t = r.read s)

/-- R47: a step appends at most one event to `H` and drops none; it appends one only when the controller moves and the running
command performs its next transaction, the event has that transaction's kind, the bytes it sends and what the oracle answers, and
neither an access, nor a hang, nor reset appends one. (That the controller moves when no turn is laid down is log entry 2.) -/
def Obligations.HistoryGrowsByTransactions : Prop :=
  ∀ s t : State, step s = .next t →
    t.hist = s.hist ∨
    (∃ kind tx result i, t.hist = s.hist ++ [⟨kind, tx, result⟩] ∧
      ((∃ rest, s.turns = .ctrl :: rest) ∨ s.turns = []) ∧ s.controllerReady = true ∧
      decodeWord s.opl.w = .command i ∧ (busTraffic s.params i)[s.phase.step]? = some (kind, tx) ∧
      (s.spiAnswer kind tx = .ioFail ∧ result = .ioFail ∨
        ∃ r0 r1, s.spiAnswer kind tx = .done r0 r1 ∧ result = .bytes (if kind = .write then [] else [r0, r1])) ∧
      t.xf = none ∧ t.cs = true ∧ t.phase ≠ .idle)

/-- R232: STICKY is set by every commit with an error, and only reset and SOFT_RESET clear it. -/
def Obligations.StickyRecordsErrors : Prop :=
  ∀ s t : State, step s = .next t →
    (s.status.sticky = true → t.status.sticky = false →
      (∃ rest, s.turns = .rst true :: rest) ∨
      (s.controllerReady = true ∧ decodeWord s.opl.w = .command .softReset ∧ t.phase = .idle ∧
        t.status.err = .ok)) ∧
    (s.phase ≠ .idle → t.phase = .idle → t.rst = false → t.status.err ≠ .ok → t.status.sticky = true)

/-- R171: a CONFIGURE that ends OK moves any state to CONFIGURED, and it is the only way out of UNCONFIGURED. -/
def Obligations.ConfigureOnlyWayOut : Prop :=
  ∀ s t : State, s.Inv → step s = .next t →
    (s.status.state = .unconfigured → t.status.state ≠ .unconfigured →
      ∃ cfg, decodeWord s.opl.w = .command (.configure cfg) ∧ t.phase = .idle ∧ t.status.err = .ok ∧
        t.status.state = .configured) ∧
    (∀ cfg, decodeWord s.opl.w = .command (.configure cfg) → s.phase ≠ .idle → t.phase = .idle → t.rst = false →
      t.status.err = .ok → t.status.state = .configured)

/-- R39: CAL, at offset 0x20, reads as the elaboration parameter at all times, straight after reset too; with it INFO and the
table, which no step changes (R40, R41). -/
def Obligations.InstanceNeverChanges : Prop :=
  Reg.ofOffset 0x20 = some .cal ∧
  (∀ s t : State, step s = .next t →
    t.params = s.params ∧ Reg.cal.read t = s.params.cal ∧ Reg.info.read t = Reg.info.read s ∧
    Reg.cal.read (State.powerOn s.params) = s.params.cal)

/-- R114: a transaction the oracle hangs leaves CS 0, XF set and no event; from then on, whatever step is taken, nothing of it
changes but by reset: BUSY stays 1, the command does not commit and a held CMD write stays held. -/
def Obligations.HangLastsUntilReset : Prop :=
  (∀ (s : State) (kind : TxKind) (tx : List Byte), s.spiAnswer kind tx = .hang →
    (∃ ph, (s.transact kind tx).xf = some ⟨kind, tx, ph⟩) ∧ (s.transact kind tx).cs = false ∧
      (s.transact kind tx).hist = s.hist ∧ (s.transact kind tx).phase = s.phase ∧
      (s.transact kind tx).status = s.status) ∧
  (∀ s t : State, s.Inv → s.xf ≠ none → step s = .next t →
    (∃ rest, s.turns = .rst true :: rest) ∨
    (t.xf = s.xf ∧ t.cs = false ∧ t.status = s.status ∧ t.status.busy = true ∧ t.phase = s.phase ∧ t.hist = s.hist ∧
      t.cmd = s.cmd ∧ t.opl = s.opl ∧ (∀ w, s.held = some w → t.held = some w)))

/-- R83: the running command's word and operand are latched: no step changes them while it runs, and what a command does does
not depend on ARG. -/
def Obligations.RunningCommandLatched : Prop :=
  (∀ s t : State, s.Inv → step s = .next t → s.phase ≠ .idle → t.phase ≠ .idle →
    t.opl.w = s.opl.w ∧ t.opl.arg = s.opl.arg ∧ t.cmd = s.cmd) ∧
  (∀ (i : Instr) (s t : State) (v : Word), exec i s = .next t →
    t.arg = s.arg ∧ exec i { s with arg := v } = .next { t with arg := v })

/-! The words of the window. -/

/-- R25: the fields of the STATUS word. -/
def Obligations.StatusWordFields : Prop :=
  ∀ s : State,
    (Reg.status.read s).getLsbD 0 = s.status.busy ∧
    (Reg.status.read s).extractLsb' 1 2 =
      (match s.status.state with | .unconfigured => 0b00#2 | .configured => 0b01#2 | .reading => 0b10#2) ∧
    (Reg.status.read s).getLsbD 3 = s.status.sticky ∧
    (Reg.status.read s).extractLsb' 4 4 =
      (match s.status.err with
        | .ok => 0#4 | .illegal => 1#4 | .state => 2#4 | .noReady => 3#4 | .io => 4#4 | .verify => 5#4) ∧
    (Reg.status.read s).getLsbD 8 = s.status.fault ∧
    (Reg.status.read s).getLsbD 9 = s.status.oor ∧
    (Reg.status.read s).getLsbD 10 = s.status.ready ∧
    (Reg.status.read s).extractLsb' 11 21 = 0#21

/-- R33: the reserved bits of STATUS, RAW, CFG, RXD and INFO read as 0 in every state. -/
def Obligations.ReservedBitsReadZero : Prop :=
  ∀ s : State,
    (Reg.status.read s).extractLsb' 11 21 = 0#21 ∧ (Reg.raw.read s).extractLsb' 16 16 = 0#16 ∧
    (Reg.cfg.read s).extractLsb' 16 16 = 0#16 ∧ (Reg.rxd.read s).extractLsb' 8 24 = 0#24 ∧
    (Reg.info.read s).extractLsb' 6 2 = 0#2

/-- R40: the fields of the INFO word of a legal instance, at offset 0x24, constant. -/
def Obligations.InfoWordFields : Prop :=
  Reg.ofOffset 0x24 = some .info ∧
  (∀ s : State, s.params.legal = true →
    (Reg.info.read s).getLsbD 0 = s.params.hasReadyLine ∧
    (Reg.info.read s).getLsbD 1 = s.params.readyActive ∧
    (Reg.info.read s).getLsbD 2 = s.params.wire3Bit ∧
    (Reg.info.read s).extractLsb' 3 3 = s.params.rsvd ∧
    (Reg.info.read s).extractLsb' 6 2 = 0#2 ∧
    (Reg.info.read s).extractLsb' 8 8 = s.params.verifyMask ∧
    ((Reg.info.read s).extractLsb' 16 16).toNat = s.params.table.length ∧
    (∀ t, step s = .next t → Reg.info.read t = Reg.info.read s))

/-- A 4-byte read of a register at its offset of R22 is answered with the register's word and changes nothing else, whether or
not a command runs (R64, R85). -/
def Obligations.RegisterReadsChangeNothing : Prop :=
  ∀ (s : State) (off : Nat) (val : Word) (rest : List Turn) (prog : List HostOp),
    s.params.legal = true → s.rst = false → s.held = none → s.turns = .host :: rest →
    s.program = .read (s.params.base + off) 4 :: prog →
    (off = 0x00 ∧ val = s.cmd ∨ off = 0x04 ∧ val = s.arg ∨ off = 0x08 ∧ val = s.status.word ∨
      off = 0x0C ∧ val = 0#16 ++ s.raw ∨ off = 0x10 ∧ val = s.ohms ∨ off = 0x14 ∧ val = s.temp ∨
      off = 0x18 ∧ val = 0#16 ++ s.cfgrb ++ s.cfgw ∨ off = 0x1C ∧ val = 0#24 ++ s.rxd ∨
      off = 0x20 ∧ val = s.params.cal ∨ off = 0x24 ∧ val = infoWord s.params) →
    step s = .next { s with turns := rest, program := prog, answers := s.answers ++ [.data val] }

/-- R63: the accesses that are answered BUSERR, with no state change: a wrong width, a misaligned offset, a reserved offset, a
write to a read-only register. That the host goes on with its next operation after a BUSERR is the model's choice (log entry 23;
R252 leaves it to the platform). -/
def Obligations.WindowBusErrors : Prop :=
  ∀ (s : State) (off n : Nat) (rest : List Turn) (prog : List HostOp),
    s.params.legal = true → s.held = none → s.turns = .host :: rest → off < 64 →
    ((s.program = .read (s.params.base + off) n :: prog ∧ (n ≠ 4 ∨ off % 4 ≠ 0 ∨ 0x28 ≤ off)) ∨
      (∃ v, s.program = .write (s.params.base + off) n v :: prog ∧ (n ≠ 4 ∨ off % 4 ≠ 0 ∨ 0x08 ≤ off))) →
    step s = .next { s with turns := rest, program := prog, answers := s.answers ++ [.busErr] }

/-- R79: a host write to CMD with no command running issues it in one step, and is answered. -/
def Obligations.CmdWriteIssues : Prop :=
  ∀ (s : State) (w : Word) (rest : List Turn) (prog : List HostOp),
    s.Inv → s.rst = false → s.held = none → s.phase = .idle → s.turns = .host :: rest →
    s.program = .write s.params.base 4 w :: prog →
    step s = .next { s with
      turns := rest
      program := prog
      answers := s.answers ++ [.ok]
      cmd := w
      opl := { s.opl with w := w, arg := s.arg, failed := false }
      status := { s.status with busy := true }
      phase := .exec (w.extractLsb' 28 4) 0 }

/-- R65: a CMD write while BUSY = 1 is held and gets no answer; while it is held and BUSY = 1 the host has no step; when the
command has committed the write completes and issues its command. A write to ARG and any read complete at once while BUSY = 1. -/
def Obligations.CmdWriteHeldWhileBusy : Prop :=
  ∀ (s : State) (rest : List Turn), s.params.legal = true → s.rst = false → s.turns = .host :: rest →
    (∀ (w : Word) (prog : List HostOp), s.held = none → s.status.busy = true →
      s.program = .write s.params.base 4 w :: prog →
      step s = .next { s with turns := rest, program := prog, held := some w }) ∧
    (∀ w : Word, s.held = some w → s.status.busy = true → step s = .next { s with turns := rest }) ∧
    (∀ w : Word, s.held = some w → s.status.busy = false →
      step s = .next { s with
        turns := rest
        held := none
        answers := s.answers ++ [.ok]
        cmd := w
        opl := { s.opl with w := w, arg := s.arg, failed := false }
        status := { s.status with busy := true }
        phase := .exec (w.extractLsb' 28 4) 0 }) ∧
    (∀ (v : Word) (prog : List HostOp), s.held = none → s.status.busy = true →
      s.program = .write (s.params.base + 4) 4 v :: prog →
      step s = .next { s with turns := rest, program := prog, answers := s.answers ++ [.ok], arg := v }) ∧
    (∀ (r : Reg) (prog : List HostOp), s.held = none → s.status.busy = true →
      s.program = .read (s.params.base + r.offset) 4 :: prog →
      step s = .next { s with turns := rest, program := prog, answers := s.answers ++ [.data (r.read s)] })

/-- A host write to ARG stores all 32 bits at once, also while a command runs, issues nothing, and changes nothing else (R24,
R64, R65). -/
def Obligations.ArgWriteStores : Prop :=
  ∀ (s : State) (v : Word) (rest : List Turn) (prog : List HostOp),
    s.params.legal = true → s.rst = false → s.held = none → s.turns = .host :: rest →
    s.program = .write (s.params.base + 4) 4 v :: prog →
    step s = .next { s with turns := rest, program := prog, answers := s.answers ++ [.ok], arg := v }

/-- The host's loops (R101): WAIT reads STATUS and goes on until BUSY is 0; POLL_READY issues IS_READY, waits, reads STATUS and
begins again unless READY is 1 or ERR is not 0. Its CMD write while BUSY = 1 is held (R65). Here out of reset, at the block's
window. That each access is one step of the host is the model's choice (log entry 15). -/
def Obligations.HostLoopsRepeat : Prop :=
  ∀ (s : State) (rest : List Turn) (prog : List HostOp),
    s.params.legal = true → s.rst = false → s.held = none → s.turns = .host :: rest →
    (s.program = .wait :: prog →
      step s = .next { s with
        turns := rest
        program := if s.status.busy then s.program else prog
        answers := s.answers ++ [.data s.status.word] }) ∧
    (s.program = .pollReady :: prog → s.status.busy = false →
      ∃ t, step s = .next t ∧ t.cmd = 0x20000000#32 ∧ t.phase = .exec 0x2#4 0 ∧ t.status.busy = true ∧
        t.program = .wait :: .pollCheck :: prog ∧ t.answers = s.answers ++ [.ok]) ∧
    (s.program = .pollReady :: prog → s.status.busy = true →
      step s = .next { s with turns := rest, program := .wait :: .pollCheck :: prog, held := some 0x20000000#32 }) ∧
    (s.program = .pollCheck :: prog →
      step s = .next { s with
        turns := rest
        program := if s.status.ready = true ∨ s.status.err ≠ .ok then prog else .pollReady :: prog
        answers := s.answers ++ [.data s.status.word] })

/-! Transactions. -/

/-- The primitives of R111 to R113 in one bracket (R110): completed, they record the bytes they captured (two for FULL and HALF,
none for WRITE) and put the first transaction's bytes and the second's in OPL; failed, they record IOFAIL. Either way CS is 1
again, no transaction is in flight, and no register of the window has changed. -/
def Obligations.TransactionOutcomes : Prop :=
  ∀ (s : State) (kind : TxKind) (tx : List Byte) (op : BitVec 4) (n : Nat), s.phase = .exec op n →
    (∀ r0 r1 : Byte, s.spiAnswer kind tx = .done r0 r1 →
      s.transact kind tx = { afterBus s [⟨kind, tx, .bytes (if kind = .write then [] else [r0, r1])⟩] with
        phase := .exec op (n + 1)
        opl := if kind = .write then s.opl
          else if n = 0 then { s.opl with rx1 := ⟨r0, r1⟩ } else { s.opl with rx2 := ⟨r0, r1⟩ } }) ∧
    (s.spiAnswer kind tx = .ioFail →
      s.transact kind tx = { afterBus s [⟨kind, tx, .ioFail⟩] with opl := { s.opl with failed := true } })

/-- RW_HALF (R118, R119): one HALF transaction of the address byte and the value byte, for every address and every value, zero
too; RXD gets the second byte of the read phase (R120). -/
def Obligations.RwHalfResult : Prop :=
  ∀ (s : State) (a v r0 r1 : Byte), s.JustIssued (.rwHalf a v) →
    (s.spiAnswer .half [a, v] = .done r0 r1 →
      ∃ s1, exec (.rwHalf a v) s = .next s1 ∧
        exec (.rwHalf a v) s1 = .next { afterBus s [⟨.half, [a, v], .bytes [r0, r1]⟩] with
          rxd := r1
          opl := { s.opl with rx1 := ⟨r0, r1⟩ }
          status := { s.status with busy := false, err := .ok }
          phase := .idle }) ∧
    (s.spiAnswer .half [a, v] = .ioFail →
      ∃ s1, exec (.rwHalf a v) s = .next s1 ∧
        exec (.rwHalf a v) s1 = .next { afterBus s [⟨.half, [a, v], .ioFail⟩] with
          opl := { s.opl with failed := true }
          status := { s.status with busy := false, err := .io, sticky := true }
          phase := .idle })

/-- XFER and READ_REG (R121, R127): one FULL transaction of the address byte and 0x00; RXD gets the second byte (R122, R128). The
two commands do the same (R123). -/
def Obligations.FullReadsResult : Prop :=
  ∀ (s : State) (i : Instr) (a r0 r1 : Byte), (i = .xfer a ∨ i = .readReg a) → s.JustIssued i →
    (s.spiAnswer .full [a, 0x00#8] = .done r0 r1 →
      ∃ s1, exec i s = .next s1 ∧
        exec i s1 = .next { afterBus s [⟨.full, [a, 0x00#8], .bytes [r0, r1]⟩] with
          rxd := r1
          opl := { s.opl with rx1 := ⟨r0, r1⟩ }
          status := { s.status with busy := false, err := .ok }
          phase := .idle }) ∧
    (s.spiAnswer .full [a, 0x00#8] = .ioFail →
      ∃ s1, exec i s = .next s1 ∧
        exec i s1 = .next { afterBus s [⟨.full, [a, 0x00#8], .ioFail⟩] with
          opl := { s.opl with failed := true }
          status := { s.status with busy := false, err := .io, sticky := true }
          phase := .idle })

/-- WRITE_REG (R124): one WRITE transaction of the index with bit 7 set and the value byte; it has no read phase, no result byte,
and RXD is unchanged (R126). -/
def Obligations.WriteRegHasNoResult : Prop :=
  ∀ (s : State) (idx v : Byte), s.JustIssued (.writeReg idx v) →
    (∀ r0 r1 : Byte, s.spiAnswer .write [0x80#8 ||| idx, v] = .done r0 r1 →
      ∃ s1, exec (.writeReg idx v) s = .next s1 ∧
        exec (.writeReg idx v) s1 = .next { afterBus s [⟨.write, [0x80#8 ||| idx, v], .bytes []⟩] with
          status := { s.status with busy := false, err := .ok }
          phase := .idle }) ∧
    (s.spiAnswer .write [0x80#8 ||| idx, v] = .ioFail →
      ∃ s1, exec (.writeReg idx v) s = .next s1 ∧
        exec (.writeReg idx v) s1 = .next { afterBus s [⟨.write, [0x80#8 ||| idx, v], .ioFail⟩] with
          opl := { s.opl with failed := true }
          status := { s.status with busy := false, err := .io, sticky := true }
          phase := .idle })

/-! The register protocol. -/

/-- CONFIGURE that succeeds (R145 to R148), in any STATE: the packed byte written to 0x80, read back from 0x00, the two equal on
the bits of VERIFY_MASK. -/
def Obligations.ConfigureSucceeds : Prop :=
  ∀ (s : State) (cfg : Cfg) (x y r0 rb : Byte), s.JustIssued (.configure cfg) →
    s.spiAnswer .write [0x80#8, pack s.params cfg] = .done x y →
    (afterBus s [⟨.write, [0x80#8, pack s.params cfg], .bytes []⟩]).spiAnswer .full [0x00#8, 0x00#8] = .done r0 rb →
    rb &&& s.params.verifyMask = pack s.params cfg &&& s.params.verifyMask →
    ∃ s1 s2, exec (.configure cfg) s = .next s1 ∧ exec (.configure cfg) s1 = .next s2 ∧
      exec (.configure cfg) s2 = .next { afterBus s
          [⟨.write, [0x80#8, pack s.params cfg], .bytes []⟩, ⟨.full, [0x00#8, 0x00#8], .bytes [r0, rb]⟩] with
        cfgw := pack s.params cfg
        cfgrb := rb
        opl := { s.opl with rx2 := ⟨r0, rb⟩ }
        status := { s.status with busy := false, err := .ok, state := .configured }
        phase := .idle }

/-- CONFIGURE that fails (R145, R148 to R150): the write fails, the read-back fails, or it differs under VERIFY_MASK. CFGW is the
byte it tried to write, CFGRB changes only on VERIFY, STATE is UNCONFIGURED. -/
def Obligations.ConfigureFails : Prop :=
  ∀ (s : State) (cfg : Cfg), s.JustIssued (.configure cfg) →
    (s.spiAnswer .write [0x80#8, pack s.params cfg] = .ioFail →
      ∃ s1, exec (.configure cfg) s = .next s1 ∧
        exec (.configure cfg) s1 = .next { afterBus s [⟨.write, [0x80#8, pack s.params cfg], .ioFail⟩] with
          cfgw := pack s.params cfg
          opl := { s.opl with failed := true }
          status := { s.status with busy := false, err := .io, sticky := true, state := .unconfigured }
          phase := .idle }) ∧
    (∀ x y : Byte, s.spiAnswer .write [0x80#8, pack s.params cfg] = .done x y →
      ((afterBus s [⟨.write, [0x80#8, pack s.params cfg], .bytes []⟩]).spiAnswer .full [0x00#8, 0x00#8] = .ioFail →
        ∃ s1 s2, exec (.configure cfg) s = .next s1 ∧ exec (.configure cfg) s1 = .next s2 ∧
          exec (.configure cfg) s2 = .next { afterBus s
              [⟨.write, [0x80#8, pack s.params cfg], .bytes []⟩, ⟨.full, [0x00#8, 0x00#8], .ioFail⟩] with
            cfgw := pack s.params cfg
            opl := { s.opl with failed := true }
            status := { s.status with busy := false, err := .io, sticky := true, state := .unconfigured }
            phase := .idle }) ∧
      (∀ r0 rb : Byte,
        (afterBus s [⟨.write, [0x80#8, pack s.params cfg], .bytes []⟩]).spiAnswer .full [0x00#8, 0x00#8] = .done r0 rb →
        rb &&& s.params.verifyMask ≠ pack s.params cfg &&& s.params.verifyMask →
        ∃ s1 s2, exec (.configure cfg) s = .next s1 ∧ exec (.configure cfg) s1 = .next s2 ∧
          exec (.configure cfg) s2 = .next { afterBus s
              [⟨.write, [0x80#8, pack s.params cfg], .bytes []⟩, ⟨.full, [0x00#8, 0x00#8], .bytes [r0, rb]⟩] with
            cfgw := pack s.params cfg
            cfgrb := rb
            opl := { s.opl with rx2 := ⟨r0, rb⟩ }
            status := { s.status with busy := false, err := .verify, sticky := true, state := .unconfigured }
            phase := .idle }))

/-- IS_READY: with a ready line, one sample, READY 1 exactly when its level is READY_ACTIVE (R155); without one, NOREADY and
nothing else changed (R156). -/
def Obligations.IsReadySamples : Prop :=
  ∀ s : State,
    (s.params.hasReadyLine = true →
      exec .isReady s = .next { s with
        status := { s.status with busy := false, err := .ok, ready := s.rdyLevel == s.params.readyActive }
        phase := .idle
        rdyIn := s.rdyIn.tail
        draws := s.draws + 1 }) ∧
    (s.params.hasReadyLine = false →
      exec .isReady s = .next { s with
        status := { s.status with busy := false, err := .noReady, sticky := true }
        phase := .idle })

/-- READ_RAW that succeeds (R160, R161): the MSB register, then the LSB register, in two brackets; RAW is msb << 8 | lsb, FAULT its
bit 0, STATE READING. -/
def Obligations.ReadRawSucceeds : Prop :=
  ∀ (s : State) (m0 m1 l0 l1 : Byte), s.JustIssued .readRaw → s.status.state ≠ .unconfigured →
    s.spiAnswer .full [0x01#8, 0x00#8] = .done m0 m1 →
    (afterBus s [⟨.full, [0x01#8, 0x00#8], .bytes [m0, m1]⟩]).spiAnswer .full [0x02#8, 0x00#8] = .done l0 l1 →
    ∃ s1 s2, exec .readRaw s = .next s1 ∧ exec .readRaw s1 = .next s2 ∧
      exec .readRaw s2 = .next { afterBus s
          [⟨.full, [0x01#8, 0x00#8], .bytes [m0, m1]⟩, ⟨.full, [0x02#8, 0x00#8], .bytes [l0, l1]⟩] with
        raw := m1 ++ l1
        opl := { s.opl with rx1 := ⟨m0, m1⟩, rx2 := ⟨l0, l1⟩ }
        status := { s.status with busy := false, err := .ok, fault := l1.getLsbD 0, state := .reading }
        phase := .idle }

/-- READ_RAW that ends in an error: STATE from UNCONFIGURED, with no transaction (R163); IO when a read fails, with RAW, FAULT and
STATE as they were, and no LSB read after a failed MSB read (R164). -/
def Obligations.ReadRawErrors : Prop :=
  ∀ s : State, s.JustIssued .readRaw →
    (s.status.state = .unconfigured →
      exec .readRaw s = .next { s with
        status := { s.status with busy := false, err := .state, sticky := true }
        phase := .idle }) ∧
    (s.status.state ≠ .unconfigured → s.spiAnswer .full [0x01#8, 0x00#8] = .ioFail →
      ∃ s1, exec .readRaw s = .next s1 ∧
        exec .readRaw s1 = .next { afterBus s [⟨.full, [0x01#8, 0x00#8], .ioFail⟩] with
          opl := { s.opl with failed := true }
          status := { s.status with busy := false, err := .io, sticky := true }
          phase := .idle }) ∧
    (∀ m0 m1 : Byte, s.status.state ≠ .unconfigured →
      s.spiAnswer .full [0x01#8, 0x00#8] = .done m0 m1 →
      (afterBus s [⟨.full, [0x01#8, 0x00#8], .bytes [m0, m1]⟩]).spiAnswer .full [0x02#8, 0x00#8] = .ioFail →
      ∃ s1 s2, exec .readRaw s = .next s1 ∧ exec .readRaw s1 = .next s2 ∧
        exec .readRaw s2 = .next { afterBus s
            [⟨.full, [0x01#8, 0x00#8], .bytes [m0, m1]⟩, ⟨.full, [0x02#8, 0x00#8], .ioFail⟩] with
          opl := { s.opl with failed := true, rx1 := ⟨m0, m1⟩ }
          status := { s.status with busy := false, err := .io, sticky := true }
          phase := .idle })

/-- SOFT_RESET (R165), in any STATE: the protocol state, STICKY, the flags and the result registers cleared, ERR OK; CMD, ARG and
the peripheral untouched. -/
def Obligations.SoftResetClears : Prop :=
  ∀ s : State, exec .softReset s = .next { s with
    status :=
      { busy := false, state := .unconfigured, sticky := false, err := .ok, fault := false, oor := false, ready := false }
    phase := .idle
    raw := 0#16
    ohms := 0#32
    temp := 0#32
    cfgw := 0#8
    cfgrb := 0#8
    rxd := 0#8 }

/-! The decoder. -/

/-- DECODE (R180), in any STATE: OHMS from the latched ARG[15:0], its upper half ignored; FAULT its bit 0. -/
def Obligations.DecodeCommits : Prop :=
  ∀ s : State, exec .decode s = .next { s with
    ohms := BitVec.ofNat 32 ((s.opl.arg.toNat % 65536 / 2) * s.params.cal.toNat / 32768)
    status := { s.status with busy := false, err := .ok, fault := s.opl.arg.getLsbD 0 }
    phase := .idle }

/-- R183: the product is below 2^47, and OHMS never wraps: it is exactly floor(code15 * CAL / 2^15), at most 4294836223, for every
raw value and every CAL. -/
def Obligations.DecodedOhmsExact : Prop :=
  ∀ (cal : Word) (raw : BitVec 16),
    raw.toNat / 2 * cal.toNat < 2 ^ 47 ∧
    (decodedOhms cal raw).toNat = raw.toNat / 2 * cal.toNat / 32768 ∧ (decodedOhms cal raw).toNat ≤ 4294836223

/-- R187: the five properties of the decoder. -/
def Obligations.DecoderProperties : Prop :=
  (∀ (cal : Word) (raw raw' : BitVec 16), raw.toNat / 2 ≤ raw'.toNat / 2 →
    (decodedOhms cal raw).toNat ≤ (decodedOhms cal raw').toNat) ∧
  (∀ raw : BitVec 16, decodedOhms 0#32 raw = 0#32) ∧
  (∀ raw : BitVec 16, (decodedOhms 32768#32 raw).toNat = raw.toNat / 2) ∧
  (∀ (cal : Word) (raw : BitVec 16), 0 < cal.toNat → (decodedOhms cal raw).toNat < cal.toNat) ∧
  (∀ (cal : Word) (raw raw' : BitVec 16), raw.toNat / 2 = raw'.toNat / 2 → decodedOhms cal raw = decodedOhms cal raw')

/-! The lookup engine. -/

/-- LOOKUP (R195), in any STATE: TEMP and OOR from the latched ARG, as an unsigned ohms value. -/
def Obligations.LookupCommits : Prop :=
  ∀ s : State, exec .lookup s = .next { s with
    temp := BitVec.ofInt 32 (lookupTable s.params.table s.opl.arg.toNat).1
    status := { s.status with busy := false, err := .ok, oor := (lookupTable s.params.table s.opl.arg.toNat).2 }
    phase := .idle }

/-- R196: below the table t_0 and above it t_(N-1), clamped; inside it the ohms value is interpolated in the bracket of the
largest index i in 0 .. N-2 with r_i <= x. -/
def Obligations.LookupUsesBracket : Prop :=
  ∀ (table : List Sample) (x : Nat) (first last : Sample), 2 ≤ table.length → tableIncreasing table = true →
    table.head? = some first → table.getLast? = some last →
    (x < first.r.toNat → lookupTable table x = (first.t.toInt, true)) ∧
    (last.r.toNat < x → lookupTable table x = (last.t.toInt, true)) ∧
    (first.r.toNat ≤ x → x ≤ last.r.toNat →
      ∃ (i : Nat) (a b : Sample), table[i]? = some a ∧ table[i + 1]? = some b ∧ a.r.toNat ≤ x ∧
        (∀ (j : Nat) (c : Sample), table[j]? = some c → j + 1 < table.length → c.r.toNat ≤ x → j ≤ i) ∧
        lookupTable table x = (interpolated a b x, false))

/-- R197: inside the table the quotient is no larger than the temperature difference of the bracket, so the result lies between
its two temperatures; outside it is a table entry's. So TEMP, in two's complement, holds it exactly and never overflows. -/
def Obligations.LookupNeverOverflows : Prop :=
  ∀ (p : Params) (x : Word), p.legal = true →
    (lookupTemp p x).toInt = (lookupTable p.table x.toNat).1 ∧
    (∀ (i : Nat) (a b : Sample), p.table[i]? = some a → p.table[i + 1]? = some b → a.r.toNat ≤ x.toNat →
      x.toNat ≤ b.r.toNat →
      (Int.tdiv (((x.toNat : Int) - a.r.toNat) * (b.t.toInt - a.t.toInt)) ((b.r.toNat : Int) - a.r.toNat)).natAbs ≤
        (b.t.toInt - a.t.toInt).natAbs ∧
      min a.t.toInt b.t.toInt ≤ (lookupTemp p x).toInt ∧ (lookupTemp p x).toInt ≤ max a.t.toInt b.t.toInt) ∧
    (lookupOor p x = true → ∃ c ∈ p.table, (lookupTemp p x).toInt = c.t.toInt)

/-- R198: LOOKUP of an ohms value below the table gives t_0, above it t_(N-1), and OOR is 1 in exactly these two cases; out of
range is a flag, and ERR is OK. -/
def Obligations.LookupClamps : Prop :=
  ∀ (s : State) (first last : Sample), s.params.legal = true →
    s.params.table.head? = some first → s.params.table.getLast? = some last →
    ∃ t, exec .lookup s = .next t ∧ t.status.err = .ok ∧
      (s.opl.arg.toNat < first.r.toNat → t.temp = first.t) ∧
      (last.r.toNat < s.opl.arg.toNat → t.temp = last.t) ∧
      (t.status.oor = true ↔ s.opl.arg.toNat < first.r.toNat ∨ last.r.toNat < s.opl.arg.toNat)

/-- R199: every bracket that holds the ohms value gives the same result, and a key gives its own temperature exactly, the last key
too, with OOR = 0. -/
def Obligations.BracketChoiceImmaterial : Prop :=
  ∀ (table : List Sample) (x i : Nat) (a b : Sample), tableIncreasing table = true → table[i]? = some a →
    table[i + 1]? = some b → a.r.toNat ≤ x → x ≤ b.r.toNat →
    lookupTable table x = (interpolated a b x, false) ∧
    (x = a.r.toNat → lookupTable table x = (a.t.toInt, false)) ∧
    (x = b.r.toNat → lookupTable table x = (b.t.toInt, false))

/-! Packing. -/

/-- R142: the bits of the packed configuration byte, for every instance and every configuration; with the default parameters the
source's vector packs to 0xC5. -/
def Obligations.PackBits : Prop :=
  (∀ (p : Params) (cfg : Cfg),
    (pack p cfg).getLsbD 7 = cfg.vbias ∧ (pack p cfg).getLsbD 6 = cfg.cmode ∧ (pack p cfg).getLsbD 5 = cfg.oneShot ∧
    (pack p cfg).getLsbD 4 = (if cfg.wire = .three then p.wire3Bit else !p.wire3Bit) ∧
    (pack p cfg).extractLsb' 1 3 = p.rsvd ∧
    (pack p cfg).getLsbD 0 = decide (cfg.filter = .hz50)) ∧
  Params.reference.wire3Bit = false ∧ Params.reference.rsvd = 0b010#3 ∧
  pack Params.reference ⟨true, true, false, .three, .hz50⟩ = 0xC5#8

/-- R144: the two round trips: of bytes, for exactly the bytes whose bits 3..1 are P_RSVD, and of configurations, for every one
but TwoWire, which comes back as FourWire. -/
def Obligations.PackRoundTrips : Prop :=
  (∀ (p : Params) (b : Byte),
    (pack p (unpack p b) = b ↔ b.extractLsb' 1 3 = p.rsvd) ∧
    (pack p (unpack p b)).extractLsb' 4 4 = b.extractLsb' 4 4 ∧ (pack p (unpack p b)).extractLsb' 1 3 = p.rsvd ∧
    (pack p (unpack p b)).getLsbD 0 = b.getLsbD 0) ∧
  (∀ (p : Params) (cfg : Cfg),
    (cfg.wire ≠ .two → unpack p (pack p cfg) = cfg) ∧
    (cfg.wire = .two → unpack p (pack p cfg) = { cfg with wire := .four }))

/-! MEASURE. -/

/-- MEASURE that succeeds (R215): the raw value read, decoded and looked up, all committed in one step; a faulted reading too
(R217); ARG is neither read nor written. -/
def Obligations.MeasureSucceeds : Prop :=
  ∀ (s : State) (m0 m1 l0 l1 : Byte) (ohms : Word), s.JustIssued .measure → s.status.state ≠ .unconfigured →
    s.spiAnswer .full [0x01#8, 0x00#8] = .done m0 m1 →
    (afterBus s [⟨.full, [0x01#8, 0x00#8], .bytes [m0, m1]⟩]).spiAnswer .full [0x02#8, 0x00#8] = .done l0 l1 →
    ohms = BitVec.ofNat 32 ((m1.toNat * 256 + l1.toNat) / 2 * s.params.cal.toNat / 32768) →
    ∃ s1 s2, exec .measure s = .next s1 ∧ exec .measure s1 = .next s2 ∧
      exec .measure s2 = .next { afterBus s
          [⟨.full, [0x01#8, 0x00#8], .bytes [m0, m1]⟩, ⟨.full, [0x02#8, 0x00#8], .bytes [l0, l1]⟩] with
        raw := m1 ++ l1
        ohms := ohms
        temp := BitVec.ofInt 32 (lookupTable s.params.table ohms.toNat).1
        opl := { s.opl with rx1 := ⟨m0, m1⟩, rx2 := ⟨l0, l1⟩ }
        status := { s.status with
          busy := false, err := .ok, fault := l1.getLsbD 0, state := .reading,
          oor := (lookupTable s.params.table ohms.toNat).2 }
        phase := .idle }

/-- MEASURE that ends in an error (R218): STATE from UNCONFIGURED, with no transaction; IO when a read fails, with every result
register and flag as it was, and no LSB read after a failed MSB read. -/
def Obligations.MeasureErrors : Prop :=
  ∀ s : State, s.JustIssued .measure →
    (s.status.state = .unconfigured →
      exec .measure s = .next { s with
        status := { s.status with busy := false, err := .state, sticky := true }
        phase := .idle }) ∧
    (s.status.state ≠ .unconfigured → s.spiAnswer .full [0x01#8, 0x00#8] = .ioFail →
      ∃ s1, exec .measure s = .next s1 ∧
        exec .measure s1 = .next { afterBus s [⟨.full, [0x01#8, 0x00#8], .ioFail⟩] with
          opl := { s.opl with failed := true }
          status := { s.status with busy := false, err := .io, sticky := true }
          phase := .idle }) ∧
    (∀ m0 m1 : Byte, s.status.state ≠ .unconfigured →
      s.spiAnswer .full [0x01#8, 0x00#8] = .done m0 m1 →
      (afterBus s [⟨.full, [0x01#8, 0x00#8], .bytes [m0, m1]⟩]).spiAnswer .full [0x02#8, 0x00#8] = .ioFail →
      ∃ s1 s2, exec .measure s = .next s1 ∧ exec .measure s1 = .next s2 ∧
        exec .measure s2 = .next { afterBus s
            [⟨.full, [0x01#8, 0x00#8], .bytes [m0, m1]⟩, ⟨.full, [0x02#8, 0x00#8], .ioFail⟩] with
          opl := { s.opl with failed := true, rx1 := ⟨m0, m1⟩ }
          status := { s.status with busy := false, err := .io, sticky := true }
          phase := .idle })

/-- R216: for the same oracle answers MEASURE leaves the same events, RAW, FAULT, OHMS, TEMP, OOR and STATE as READ_RAW, then
DECODE with ARG = RAW, then LOOKUP with ARG = OHMS; only MEASURE leaves ARG unchanged. -/
def Obligations.MeasureEqualsThreeCommands : Prop :=
  ∀ s m : State, s.rst = false → s.xf = none → commandRun 0x60000000#32 s = .next m → m.phase = .idle →
    m.status.err = .ok →
    m.arg = s.arg ∧
    ∃ r d l, commandRun 0x30000000#32 s = .next r ∧
      commandRun 0x40000000#32 { r with arg := Reg.raw.read r } = .next d ∧
      commandRun 0x50000000#32 { d with arg := d.ohms } = .next l ∧
      l.hist = m.hist ∧ l.raw = m.raw ∧ l.status.fault = m.status.fault ∧ l.ohms = m.ohms ∧ l.temp = m.temp ∧
      l.status.oor = m.status.oor ∧ l.status.state = m.status.state

/-! Errors and the life of a command. -/

/-- R233: what a command that ends in an error changes, whatever the command: ERR, STICKY, BUSY, and for CONFIGURE the registers
its commit clauses list. -/
def Obligations.ErroringCommandChanges : Prop :=
  ∀ s t : State, step s = .next t → s.phase ≠ .idle → t.phase = .idle → t.rst = false → t.status.err ≠ .ok →
    t.status.busy = false ∧ t.status.sticky = true ∧ t.cmd = s.cmd ∧ t.arg = s.arg ∧ t.raw = s.raw ∧ t.ohms = s.ohms ∧
    t.temp = s.temp ∧ t.rxd = s.rxd ∧ t.hist = s.hist ∧ t.status.fault = s.status.fault ∧ t.status.oor = s.status.oor ∧
    t.status.ready = s.status.ready ∧
    ((t.cfgw = s.cfgw ∧ t.cfgrb = s.cfgrb ∧ t.status.state = s.status.state ∧
        ∀ cfg, decodeWord s.opl.w ≠ .command (.configure cfg)) ∨
      ∃ cfg, decodeWord s.opl.w = .command (.configure cfg) ∧ t.cfgw = pack s.params cfg ∧
        t.status.state = .unconfigured ∧
        (t.status.err = .io ∧ t.cfgrb = s.cfgrb ∨ t.status.err = .verify ∧ t.cfgrb = s.opl.rx2.b1))

/-- A command left to run ends with its commit or hangs (R80, R114); if it ends OK it has performed exactly the transactions of its
row of R51, in order, and all of them completed. That three steps of the controller are enough counts the model's own steps (log
entry 9). -/
def Obligations.CommandEndsOrHangs : Prop :=
  ∀ (s : State) (w : Word), s.rst = false → s.xf = none →
    ∃ t, commandRun w s = .next t ∧
      ((t.phase = .idle ∧ t.status.busy = false ∧ t.xf = none) ∨
        (t.phase ≠ .idle ∧ t.status.busy = true ∧ t.xf ≠ none ∧ t.cs = false)) ∧
      (t.phase = .idle → t.status.err = .ok →
        ∃ i es, decodeWord w = .command i ∧ t.hist = s.hist ++ es ∧ es.map Event.kind = transactionKinds i ∧
          ∀ e ∈ es, e.result ≠ .ioFail)

/-- R175: the transition table of the register-protocol state machine. -/
def Obligations.ProtocolTransitions : Prop :=
  ∀ (s t : State) (w : Word), s.rst = false → s.xf = none → commandRun w s = .next t → t.phase = .idle →
    match decodeWord w with
    | .command (.configure _) =>
      t.status.err = .ok ∧ t.status.state = .configured ∨
      (t.status.err = .io ∨ t.status.err = .verify) ∧ t.status.state = .unconfigured
    | .command .softReset => t.status.err = .ok ∧ t.status.state = .unconfigured
    | .command .readRaw | .command .measure =>
      t.status.err = .ok ∧ s.status.state ≠ .unconfigured ∧ t.status.state = .reading ∨
      t.status.err = .state ∧ s.status.state = .unconfigured ∧ t.status.state = .unconfigured ∨
      t.status.err = .io ∧ s.status.state ≠ .unconfigured ∧ t.status.state = s.status.state
    | .illegal _ => t.status.err = .illegal ∧ t.status.state = s.status.state
    | .command .isReady | .command .decode | .command .lookup | .command (.rwHalf _ _) | .command (.xfer _)
    | .command (.writeReg _ _) | .command (.readReg _) => t.status.state = s.status.state

/-- R130, R131: no step of a raw register command changes STATE, CFGW or CFGRB, whatever address it sends; nor RAW, OHMS, TEMP or a
flag, and WRITE_REG does not change RXD. -/
def Obligations.RawCommandsKeepProtocol : Prop :=
  ∀ (i : Instr) (s t : State) (a v : Byte), (i = .rwHalf a v ∨ i = .xfer a ∨ i = .writeReg a v ∨ i = .readReg a) →
    exec i s = .next t →
    t.status.state = s.status.state ∧ t.cfgw = s.cfgw ∧ t.cfgrb = s.cfgrb ∧ t.raw = s.raw ∧ t.ohms = s.ohms ∧
    t.temp = s.temp ∧ t.status.fault = s.status.fault ∧ t.status.oor = s.status.oor ∧ t.status.ready = s.status.ready ∧
    t.arg = s.arg ∧ t.cmd = s.cmd ∧ (i = .writeReg a v → t.rxd = s.rxd)

/-! The wire. -/

/-- The wire of a transaction of two sent bytes that the peripheral answers with two (R71, R110 to R112, R116, R281), and so of its
event: CS falls with SCLK at 1 and rises at the end; in cycle k MOSI takes bit k of the sent bytes, most significant first, on
the falling edge of SCLK and holds it to the rising edge, and zeros in the read phase of HALF; MISO carries the answered bytes
so too, in the cycles of FULL and in the read phase of HALF; SCLK makes 16 rising edges for FULL and WRITE, 32 for HALF; and the
bytes captured are those that MISO's levels at the rising edges make. A transaction that fails is broken off: what came of the
bracket until then, and CS rises (R115); when HALF fails in its write phase no read phase happens (R112). Bit order and edges are
log entry 12. The model's choice (log entry 16): the granularity of the levels, MOSI at MOSI_IDLE between the fall of CS and the
first edge and as CS rises, and as free values MISO outside the captured bits and where a failed transaction breaks off. -/
def Obligations.WireBracket : Prop :=
  ∀ (p : Params) (draw : Nat) (kind : TxKind) (b0 b1 r0 r1 : Byte) (wire : List Levels),
    wire = transactionLevels p draw kind [b0, b1] ⟨r0, r1⟩ →
    eventLevels p draw ⟨kind, [b0, b1], .bytes (if kind = .write then [] else [r0, r1])⟩ = wire ∧
    risingEdges wire = (if kind = .half then 32 else 16) ∧
    wire.length = (if kind = .half then 66 else 34) ∧
    (∃ i, wire.head? = some ⟨false, true, p.mosiIdle, i⟩) ∧
    (∀ l ∈ wire.dropLast, l.cs = false) ∧
    (∃ i, wire.getLast? = some ⟨true, true, p.mosiIdle, i⟩) ∧
    (∀ k, k < 16 → ∃ i,
      wire[2 * k + 1]? = some ⟨false, false, if k < 8 then b0.getLsbD (7 - k) else b1.getLsbD (15 - k), i⟩ ∧
      wire[2 * k + 2]? = some ⟨false, true, if k < 8 then b0.getLsbD (7 - k) else b1.getLsbD (15 - k), i⟩) ∧
    (kind = .half → ∀ k, k < 16 → ∃ i,
      wire[2 * k + 33]? = some ⟨false, false, false, i⟩ ∧ wire[2 * k + 34]? = some ⟨false, true, false, i⟩) ∧
    (kind ≠ .write → ∀ k, k < 16 → ∃ o,
      wire[2 * k + (if kind = .half then 33 else 1)]? =
        some ⟨false, false, o, if k < 8 then r0.getLsbD (7 - k) else r1.getLsbD (15 - k)⟩ ∧
      wire[2 * k + (if kind = .half then 34 else 2)]? =
        some ⟨false, true, o, if k < 8 then r0.getLsbD (7 - k) else r1.getLsbD (15 - k)⟩) ∧
    (kind ≠ .write → captured kind wire = ⟨r0, r1⟩) ∧
    (∃ i, (eventLevels p draw ⟨kind, [b0, b1], .ioFail⟩).getLast? = some ⟨true, true, p.mosiIdle, i⟩) ∧
    (∀ l ∈ (eventLevels p draw ⟨kind, [b0, b1], .ioFail⟩).dropLast, l.cs = false) ∧
    (∃ m0 m1, (eventLevels p draw ⟨kind, [b0, b1], .ioFail⟩).dropLast <+: transactionLevels p draw kind [b0, b1] ⟨m0, m1⟩) ∧
    (kind = .half →
      failPhase kind draw = .writing ∧ (eventLevels p draw ⟨kind, [b0, b1], .ioFail⟩).length ≤ 34 ∨
      failPhase kind draw = .reading ∧ 34 ≤ (eventLevels p draw ⟨kind, [b0, b1], .ioFail⟩).length)
end

