-- ==== Sys2Proof/Laws/Encoding.lean ====
section
/-! SUPPORT. The fields of a command word, and the words of fields. -/

namespace Sys2Proof

/-- The bits of a command word, field by field. -/
theorem getLsbD_cmdWord (o : BitVec 4) (a v : Byte) (i : Nat) :
    (cmdWord o a v).getLsbD i =
      if i < 8 then v.getLsbD i
      else if i < 16 then a.getLsbD (i - 8)
      else if i < 28 then false
      else o.getLsbD (i - 28) := by
  simp only [cmdWord, BitVec.getLsbD_append]
  by_cases h8 : i < 8
  · simp [h8]
  · by_cases h16 : i < 16
    · simp [h8, h16, show i - 8 < 8 by omega]
    · by_cases h28 : i < 28
      · simp [h8, h16, h28, show ¬ i - 8 < 8 by omega, show i - 8 - 8 < 12 by omega]
      · simp [h8, h16, h28, show ¬ i - 8 < 8 by omega, show ¬ i - 8 - 8 < 12 by omega, show i - 8 - 8 - 12 = i - 28 by omega]

@[simp] theorem opcOf_cmdWord (o : BitVec 4) (a v : Byte) : opcOf (cmdWord o a v) = o := by
  refine BitVec.eq_of_getLsbD_eq fun i hi => ?_
  simp only [opcOf, BitVec.getLsbD_extractLsb', getLsbD_cmdWord]
  simp [hi, show ¬ 28 + i < 8 by omega, show ¬ 28 + i < 16 by omega]

@[simp] theorem rsvOf_cmdWord (o : BitVec 4) (a v : Byte) : rsvOf (cmdWord o a v) = 0#12 := by
  refine BitVec.eq_of_getLsbD_eq fun i hi => ?_
  simp only [rsvOf, BitVec.getLsbD_extractLsb', getLsbD_cmdWord]
  simp [show ¬ 16 + i < 8 by omega, show ¬ 16 + i < 16 by omega, show 16 + i < 28 by omega]

@[simp] theorem aOf_cmdWord (o : BitVec 4) (a v : Byte) : aOf (cmdWord o a v) = a := by
  refine BitVec.eq_of_getLsbD_eq fun i hi => ?_
  simp only [aOf, BitVec.getLsbD_extractLsb', getLsbD_cmdWord]
  simp [hi, show 8 + i < 16 by omega]

@[simp] theorem vOf_cmdWord (o : BitVec 4) (a v : Byte) : vOf (cmdWord o a v) = v := by
  refine BitVec.eq_of_getLsbD_eq fun i hi => ?_
  simp only [vOf, BitVec.getLsbD_extractLsb', getLsbD_cmdWord]
  simp [hi]

/-- A word whose reserved bits are zero is made of its three fields. -/
theorem cmdWord_fields (w : Word) (h : rsvOf w = 0#12) : cmdWord (opcOf w) (aOf w) (vOf w) = w := by
  refine BitVec.eq_of_getLsbD_eq fun i hi => ?_
  have hr : ∀ k, k < 12 → w.getLsbD (16 + k) = false := fun k hk => by
    have := congrArg (fun x : BitVec 12 => x.getLsbD k) h
    simpa [rsvOf, hk] using this
  simp only [getLsbD_cmdWord, opcOf, aOf, vOf, BitVec.getLsbD_extractLsb']
  by_cases h8 : i < 8
  · simp [h8]
  · by_cases h16 : i < 16
    · simp [h8, h16, show i - 8 < 8 by omega, show 8 + (i - 8) = i by omega]
    · by_cases h28 : i < 28
      · have := hr (i - 16) (by omega)
        simp [h8, h16, h28, ← this, show 16 + (i - 16) = i by omega]
      · simp [h8, h16, h28, show i - 28 < 4 by omega, show 28 + (i - 28) = i by omega]

end Sys2Proof
end

