-- ==== Sys2Proof/Laws/State.lean ====
section
/-! SUPPORT. One lemma per field per named update of the state: what the update leaves there. A later proof cites these and
unfolds no record update. -/

namespace Sys2Proof.Machine

open Sys2Proof

variable (s : State)

/-- An error's commit is the shared commit with its code. -/
@[simp] theorem State.raise_eq (code : ErrCode) : s.raise code = s.finish code := rfl

/-! `State.finish` -/

@[simp] theorem State.finish_params (code : ErrCode) : (s.finish code).params = s.params := rfl
@[simp] theorem State.finish_cmd (code : ErrCode) : (s.finish code).cmd = s.cmd := rfl
@[simp] theorem State.finish_arg (code : ErrCode) : (s.finish code).arg = s.arg := rfl
@[simp] theorem State.finish_status (code : ErrCode) : (s.finish code).status = { s.status with busy := false, err := code, sticky := stickyAfter s.status.sticky code } := rfl
@[simp] theorem State.finish_raw (code : ErrCode) : (s.finish code).raw = s.raw := rfl
@[simp] theorem State.finish_ohms (code : ErrCode) : (s.finish code).ohms = s.ohms := rfl
@[simp] theorem State.finish_temp (code : ErrCode) : (s.finish code).temp = s.temp := rfl
@[simp] theorem State.finish_cfgw (code : ErrCode) : (s.finish code).cfgw = s.cfgw := rfl
@[simp] theorem State.finish_cfgrb (code : ErrCode) : (s.finish code).cfgrb = s.cfgrb := rfl
@[simp] theorem State.finish_rxd (code : ErrCode) : (s.finish code).rxd = s.rxd := rfl
@[simp] theorem State.finish_phase (code : ErrCode) : (s.finish code).phase = .idle := rfl
@[simp] theorem State.finish_opl (code : ErrCode) : (s.finish code).opl = s.opl := rfl
@[simp] theorem State.finish_xf (code : ErrCode) : (s.finish code).xf = s.xf := rfl
@[simp] theorem State.finish_cs (code : ErrCode) : (s.finish code).cs = s.cs := rfl
@[simp] theorem State.finish_sclk (code : ErrCode) : (s.finish code).sclk = s.sclk := rfl
@[simp] theorem State.finish_mosi (code : ErrCode) : (s.finish code).mosi = s.mosi := rfl
@[simp] theorem State.finish_rst (code : ErrCode) : (s.finish code).rst = s.rst := rfl
@[simp] theorem State.finish_held (code : ErrCode) : (s.finish code).held = s.held := rfl
@[simp] theorem State.finish_hist (code : ErrCode) : (s.finish code).hist = s.hist := rfl
@[simp] theorem State.finish_answers (code : ErrCode) : (s.finish code).answers = s.answers := rfl
@[simp] theorem State.finish_program (code : ErrCode) : (s.finish code).program = s.program := rfl
@[simp] theorem State.finish_turns (code : ErrCode) : (s.finish code).turns = s.turns := rfl
@[simp] theorem State.finish_spiIn (code : ErrCode) : (s.finish code).spiIn = s.spiIn := rfl
@[simp] theorem State.finish_rdyIn (code : ErrCode) : (s.finish code).rdyIn = s.rdyIn := rfl
@[simp] theorem State.finish_draws (code : ErrCode) : (s.finish code).draws = s.draws := rfl

/-! `State.setProto` -/

@[simp] theorem State.setProto_params (p : ProtoState) : (s.setProto p).params = s.params := rfl
@[simp] theorem State.setProto_cmd (p : ProtoState) : (s.setProto p).cmd = s.cmd := rfl
@[simp] theorem State.setProto_arg (p : ProtoState) : (s.setProto p).arg = s.arg := rfl
@[simp] theorem State.setProto_status (p : ProtoState) : (s.setProto p).status = { s.status with state := p } := rfl
@[simp] theorem State.setProto_raw (p : ProtoState) : (s.setProto p).raw = s.raw := rfl
@[simp] theorem State.setProto_ohms (p : ProtoState) : (s.setProto p).ohms = s.ohms := rfl
@[simp] theorem State.setProto_temp (p : ProtoState) : (s.setProto p).temp = s.temp := rfl
@[simp] theorem State.setProto_cfgw (p : ProtoState) : (s.setProto p).cfgw = s.cfgw := rfl
@[simp] theorem State.setProto_cfgrb (p : ProtoState) : (s.setProto p).cfgrb = s.cfgrb := rfl
@[simp] theorem State.setProto_rxd (p : ProtoState) : (s.setProto p).rxd = s.rxd := rfl
@[simp] theorem State.setProto_phase (p : ProtoState) : (s.setProto p).phase = s.phase := rfl
@[simp] theorem State.setProto_opl (p : ProtoState) : (s.setProto p).opl = s.opl := rfl
@[simp] theorem State.setProto_xf (p : ProtoState) : (s.setProto p).xf = s.xf := rfl
@[simp] theorem State.setProto_cs (p : ProtoState) : (s.setProto p).cs = s.cs := rfl
@[simp] theorem State.setProto_sclk (p : ProtoState) : (s.setProto p).sclk = s.sclk := rfl
@[simp] theorem State.setProto_mosi (p : ProtoState) : (s.setProto p).mosi = s.mosi := rfl
@[simp] theorem State.setProto_rst (p : ProtoState) : (s.setProto p).rst = s.rst := rfl
@[simp] theorem State.setProto_held (p : ProtoState) : (s.setProto p).held = s.held := rfl
@[simp] theorem State.setProto_hist (p : ProtoState) : (s.setProto p).hist = s.hist := rfl
@[simp] theorem State.setProto_answers (p : ProtoState) : (s.setProto p).answers = s.answers := rfl
@[simp] theorem State.setProto_program (p : ProtoState) : (s.setProto p).program = s.program := rfl
@[simp] theorem State.setProto_turns (p : ProtoState) : (s.setProto p).turns = s.turns := rfl
@[simp] theorem State.setProto_spiIn (p : ProtoState) : (s.setProto p).spiIn = s.spiIn := rfl
@[simp] theorem State.setProto_rdyIn (p : ProtoState) : (s.setProto p).rdyIn = s.rdyIn := rfl
@[simp] theorem State.setProto_draws (p : ProtoState) : (s.setProto p).draws = s.draws := rfl

/-! `State.setFault` -/

@[simp] theorem State.setFault_params (b : Bool) : (s.setFault b).params = s.params := rfl
@[simp] theorem State.setFault_cmd (b : Bool) : (s.setFault b).cmd = s.cmd := rfl
@[simp] theorem State.setFault_arg (b : Bool) : (s.setFault b).arg = s.arg := rfl
@[simp] theorem State.setFault_status (b : Bool) : (s.setFault b).status = { s.status with fault := b } := rfl
@[simp] theorem State.setFault_raw (b : Bool) : (s.setFault b).raw = s.raw := rfl
@[simp] theorem State.setFault_ohms (b : Bool) : (s.setFault b).ohms = s.ohms := rfl
@[simp] theorem State.setFault_temp (b : Bool) : (s.setFault b).temp = s.temp := rfl
@[simp] theorem State.setFault_cfgw (b : Bool) : (s.setFault b).cfgw = s.cfgw := rfl
@[simp] theorem State.setFault_cfgrb (b : Bool) : (s.setFault b).cfgrb = s.cfgrb := rfl
@[simp] theorem State.setFault_rxd (b : Bool) : (s.setFault b).rxd = s.rxd := rfl
@[simp] theorem State.setFault_phase (b : Bool) : (s.setFault b).phase = s.phase := rfl
@[simp] theorem State.setFault_opl (b : Bool) : (s.setFault b).opl = s.opl := rfl
@[simp] theorem State.setFault_xf (b : Bool) : (s.setFault b).xf = s.xf := rfl
@[simp] theorem State.setFault_cs (b : Bool) : (s.setFault b).cs = s.cs := rfl
@[simp] theorem State.setFault_sclk (b : Bool) : (s.setFault b).sclk = s.sclk := rfl
@[simp] theorem State.setFault_mosi (b : Bool) : (s.setFault b).mosi = s.mosi := rfl
@[simp] theorem State.setFault_rst (b : Bool) : (s.setFault b).rst = s.rst := rfl
@[simp] theorem State.setFault_held (b : Bool) : (s.setFault b).held = s.held := rfl
@[simp] theorem State.setFault_hist (b : Bool) : (s.setFault b).hist = s.hist := rfl
@[simp] theorem State.setFault_answers (b : Bool) : (s.setFault b).answers = s.answers := rfl
@[simp] theorem State.setFault_program (b : Bool) : (s.setFault b).program = s.program := rfl
@[simp] theorem State.setFault_turns (b : Bool) : (s.setFault b).turns = s.turns := rfl
@[simp] theorem State.setFault_spiIn (b : Bool) : (s.setFault b).spiIn = s.spiIn := rfl
@[simp] theorem State.setFault_rdyIn (b : Bool) : (s.setFault b).rdyIn = s.rdyIn := rfl
@[simp] theorem State.setFault_draws (b : Bool) : (s.setFault b).draws = s.draws := rfl

/-! `State.setOor` -/

@[simp] theorem State.setOor_params (b : Bool) : (s.setOor b).params = s.params := rfl
@[simp] theorem State.setOor_cmd (b : Bool) : (s.setOor b).cmd = s.cmd := rfl
@[simp] theorem State.setOor_arg (b : Bool) : (s.setOor b).arg = s.arg := rfl
@[simp] theorem State.setOor_status (b : Bool) : (s.setOor b).status = { s.status with oor := b } := rfl
@[simp] theorem State.setOor_raw (b : Bool) : (s.setOor b).raw = s.raw := rfl
@[simp] theorem State.setOor_ohms (b : Bool) : (s.setOor b).ohms = s.ohms := rfl
@[simp] theorem State.setOor_temp (b : Bool) : (s.setOor b).temp = s.temp := rfl
@[simp] theorem State.setOor_cfgw (b : Bool) : (s.setOor b).cfgw = s.cfgw := rfl
@[simp] theorem State.setOor_cfgrb (b : Bool) : (s.setOor b).cfgrb = s.cfgrb := rfl
@[simp] theorem State.setOor_rxd (b : Bool) : (s.setOor b).rxd = s.rxd := rfl
@[simp] theorem State.setOor_phase (b : Bool) : (s.setOor b).phase = s.phase := rfl
@[simp] theorem State.setOor_opl (b : Bool) : (s.setOor b).opl = s.opl := rfl
@[simp] theorem State.setOor_xf (b : Bool) : (s.setOor b).xf = s.xf := rfl
@[simp] theorem State.setOor_cs (b : Bool) : (s.setOor b).cs = s.cs := rfl
@[simp] theorem State.setOor_sclk (b : Bool) : (s.setOor b).sclk = s.sclk := rfl
@[simp] theorem State.setOor_mosi (b : Bool) : (s.setOor b).mosi = s.mosi := rfl
@[simp] theorem State.setOor_rst (b : Bool) : (s.setOor b).rst = s.rst := rfl
@[simp] theorem State.setOor_held (b : Bool) : (s.setOor b).held = s.held := rfl
@[simp] theorem State.setOor_hist (b : Bool) : (s.setOor b).hist = s.hist := rfl
@[simp] theorem State.setOor_answers (b : Bool) : (s.setOor b).answers = s.answers := rfl
@[simp] theorem State.setOor_program (b : Bool) : (s.setOor b).program = s.program := rfl
@[simp] theorem State.setOor_turns (b : Bool) : (s.setOor b).turns = s.turns := rfl
@[simp] theorem State.setOor_spiIn (b : Bool) : (s.setOor b).spiIn = s.spiIn := rfl
@[simp] theorem State.setOor_rdyIn (b : Bool) : (s.setOor b).rdyIn = s.rdyIn := rfl
@[simp] theorem State.setOor_draws (b : Bool) : (s.setOor b).draws = s.draws := rfl

/-! `State.setReady` -/

@[simp] theorem State.setReady_params (b : Bool) : (s.setReady b).params = s.params := rfl
@[simp] theorem State.setReady_cmd (b : Bool) : (s.setReady b).cmd = s.cmd := rfl
@[simp] theorem State.setReady_arg (b : Bool) : (s.setReady b).arg = s.arg := rfl
@[simp] theorem State.setReady_status (b : Bool) : (s.setReady b).status = { s.status with ready := b } := rfl
@[simp] theorem State.setReady_raw (b : Bool) : (s.setReady b).raw = s.raw := rfl
@[simp] theorem State.setReady_ohms (b : Bool) : (s.setReady b).ohms = s.ohms := rfl
@[simp] theorem State.setReady_temp (b : Bool) : (s.setReady b).temp = s.temp := rfl
@[simp] theorem State.setReady_cfgw (b : Bool) : (s.setReady b).cfgw = s.cfgw := rfl
@[simp] theorem State.setReady_cfgrb (b : Bool) : (s.setReady b).cfgrb = s.cfgrb := rfl
@[simp] theorem State.setReady_rxd (b : Bool) : (s.setReady b).rxd = s.rxd := rfl
@[simp] theorem State.setReady_phase (b : Bool) : (s.setReady b).phase = s.phase := rfl
@[simp] theorem State.setReady_opl (b : Bool) : (s.setReady b).opl = s.opl := rfl
@[simp] theorem State.setReady_xf (b : Bool) : (s.setReady b).xf = s.xf := rfl
@[simp] theorem State.setReady_cs (b : Bool) : (s.setReady b).cs = s.cs := rfl
@[simp] theorem State.setReady_sclk (b : Bool) : (s.setReady b).sclk = s.sclk := rfl
@[simp] theorem State.setReady_mosi (b : Bool) : (s.setReady b).mosi = s.mosi := rfl
@[simp] theorem State.setReady_rst (b : Bool) : (s.setReady b).rst = s.rst := rfl
@[simp] theorem State.setReady_held (b : Bool) : (s.setReady b).held = s.held := rfl
@[simp] theorem State.setReady_hist (b : Bool) : (s.setReady b).hist = s.hist := rfl
@[simp] theorem State.setReady_answers (b : Bool) : (s.setReady b).answers = s.answers := rfl
@[simp] theorem State.setReady_program (b : Bool) : (s.setReady b).program = s.program := rfl
@[simp] theorem State.setReady_turns (b : Bool) : (s.setReady b).turns = s.turns := rfl
@[simp] theorem State.setReady_spiIn (b : Bool) : (s.setReady b).spiIn = s.spiIn := rfl
@[simp] theorem State.setReady_rdyIn (b : Bool) : (s.setReady b).rdyIn = s.rdyIn := rfl
@[simp] theorem State.setReady_draws (b : Bool) : (s.setReady b).draws = s.draws := rfl

/-! `State.issue` -/

@[simp] theorem State.issue_params (w : Word) : (s.issue w).params = s.params := rfl
@[simp] theorem State.issue_cmd (w : Word) : (s.issue w).cmd = w := rfl
@[simp] theorem State.issue_arg (w : Word) : (s.issue w).arg = s.arg := rfl
@[simp] theorem State.issue_status (w : Word) : (s.issue w).status = { s.status with busy := true } := rfl
@[simp] theorem State.issue_raw (w : Word) : (s.issue w).raw = s.raw := rfl
@[simp] theorem State.issue_ohms (w : Word) : (s.issue w).ohms = s.ohms := rfl
@[simp] theorem State.issue_temp (w : Word) : (s.issue w).temp = s.temp := rfl
@[simp] theorem State.issue_cfgw (w : Word) : (s.issue w).cfgw = s.cfgw := rfl
@[simp] theorem State.issue_cfgrb (w : Word) : (s.issue w).cfgrb = s.cfgrb := rfl
@[simp] theorem State.issue_rxd (w : Word) : (s.issue w).rxd = s.rxd := rfl
@[simp] theorem State.issue_phase (w : Word) : (s.issue w).phase = .exec (opcOf w) 0 := rfl
@[simp] theorem State.issue_opl (w : Word) : (s.issue w).opl = { s.opl with w := w, arg := s.arg, failed := false } := rfl
@[simp] theorem State.issue_xf (w : Word) : (s.issue w).xf = s.xf := rfl
@[simp] theorem State.issue_cs (w : Word) : (s.issue w).cs = s.cs := rfl
@[simp] theorem State.issue_sclk (w : Word) : (s.issue w).sclk = s.sclk := rfl
@[simp] theorem State.issue_mosi (w : Word) : (s.issue w).mosi = s.mosi := rfl
@[simp] theorem State.issue_rst (w : Word) : (s.issue w).rst = s.rst := rfl
@[simp] theorem State.issue_held (w : Word) : (s.issue w).held = s.held := rfl
@[simp] theorem State.issue_hist (w : Word) : (s.issue w).hist = s.hist := rfl
@[simp] theorem State.issue_answers (w : Word) : (s.issue w).answers = s.answers := rfl
@[simp] theorem State.issue_program (w : Word) : (s.issue w).program = s.program := rfl
@[simp] theorem State.issue_turns (w : Word) : (s.issue w).turns = s.turns := rfl
@[simp] theorem State.issue_spiIn (w : Word) : (s.issue w).spiIn = s.spiIn := rfl
@[simp] theorem State.issue_rdyIn (w : Word) : (s.issue w).rdyIn = s.rdyIn := rfl
@[simp] theorem State.issue_draws (w : Word) : (s.issue w).draws = s.draws := rfl

/-! `State.sampled` -/

@[simp] theorem State.sampled_params : (s.sampled).params = s.params := rfl
@[simp] theorem State.sampled_cmd : (s.sampled).cmd = s.cmd := rfl
@[simp] theorem State.sampled_arg : (s.sampled).arg = s.arg := rfl
@[simp] theorem State.sampled_status : (s.sampled).status = s.status := rfl
@[simp] theorem State.sampled_raw : (s.sampled).raw = s.raw := rfl
@[simp] theorem State.sampled_ohms : (s.sampled).ohms = s.ohms := rfl
@[simp] theorem State.sampled_temp : (s.sampled).temp = s.temp := rfl
@[simp] theorem State.sampled_cfgw : (s.sampled).cfgw = s.cfgw := rfl
@[simp] theorem State.sampled_cfgrb : (s.sampled).cfgrb = s.cfgrb := rfl
@[simp] theorem State.sampled_rxd : (s.sampled).rxd = s.rxd := rfl
@[simp] theorem State.sampled_phase : (s.sampled).phase = s.phase := rfl
@[simp] theorem State.sampled_opl : (s.sampled).opl = s.opl := rfl
@[simp] theorem State.sampled_xf : (s.sampled).xf = s.xf := rfl
@[simp] theorem State.sampled_cs : (s.sampled).cs = s.cs := rfl
@[simp] theorem State.sampled_sclk : (s.sampled).sclk = s.sclk := rfl
@[simp] theorem State.sampled_mosi : (s.sampled).mosi = s.mosi := rfl
@[simp] theorem State.sampled_rst : (s.sampled).rst = s.rst := rfl
@[simp] theorem State.sampled_held : (s.sampled).held = s.held := rfl
@[simp] theorem State.sampled_hist : (s.sampled).hist = s.hist := rfl
@[simp] theorem State.sampled_answers : (s.sampled).answers = s.answers := rfl
@[simp] theorem State.sampled_program : (s.sampled).program = s.program := rfl
@[simp] theorem State.sampled_turns : (s.sampled).turns = s.turns := rfl
@[simp] theorem State.sampled_spiIn : (s.sampled).spiIn = s.spiIn := rfl
@[simp] theorem State.sampled_rdyIn : (s.sampled).rdyIn = s.rdyIn.tail := rfl
@[simp] theorem State.sampled_draws : (s.sampled).draws = s.draws + 1 := rfl

/-! `State.closeBracket` -/

@[simp] theorem State.closeBracket_params : (s.closeBracket).params = s.params := rfl
@[simp] theorem State.closeBracket_cmd : (s.closeBracket).cmd = s.cmd := rfl
@[simp] theorem State.closeBracket_arg : (s.closeBracket).arg = s.arg := rfl
@[simp] theorem State.closeBracket_status : (s.closeBracket).status = s.status := rfl
@[simp] theorem State.closeBracket_raw : (s.closeBracket).raw = s.raw := rfl
@[simp] theorem State.closeBracket_ohms : (s.closeBracket).ohms = s.ohms := rfl
@[simp] theorem State.closeBracket_temp : (s.closeBracket).temp = s.temp := rfl
@[simp] theorem State.closeBracket_cfgw : (s.closeBracket).cfgw = s.cfgw := rfl
@[simp] theorem State.closeBracket_cfgrb : (s.closeBracket).cfgrb = s.cfgrb := rfl
@[simp] theorem State.closeBracket_rxd : (s.closeBracket).rxd = s.rxd := rfl
@[simp] theorem State.closeBracket_phase : (s.closeBracket).phase = s.phase := rfl
@[simp] theorem State.closeBracket_opl : (s.closeBracket).opl = s.opl := rfl
@[simp] theorem State.closeBracket_xf : (s.closeBracket).xf = none := rfl
@[simp] theorem State.closeBracket_cs : (s.closeBracket).cs = true := rfl
@[simp] theorem State.closeBracket_sclk : (s.closeBracket).sclk = true := rfl
@[simp] theorem State.closeBracket_mosi : (s.closeBracket).mosi = s.params.mosiIdle := rfl
@[simp] theorem State.closeBracket_rst : (s.closeBracket).rst = s.rst := rfl
@[simp] theorem State.closeBracket_held : (s.closeBracket).held = s.held := rfl
@[simp] theorem State.closeBracket_hist : (s.closeBracket).hist = s.hist := rfl
@[simp] theorem State.closeBracket_answers : (s.closeBracket).answers = s.answers := rfl
@[simp] theorem State.closeBracket_program : (s.closeBracket).program = s.program := rfl
@[simp] theorem State.closeBracket_turns : (s.closeBracket).turns = s.turns := rfl
@[simp] theorem State.closeBracket_spiIn : (s.closeBracket).spiIn = s.spiIn := rfl
@[simp] theorem State.closeBracket_rdyIn : (s.closeBracket).rdyIn = s.rdyIn := rfl
@[simp] theorem State.closeBracket_draws : (s.closeBracket).draws = s.draws := rfl

/-! `State.drew` -/

@[simp] theorem State.drew_params : (s.drew).params = s.params := rfl
@[simp] theorem State.drew_cmd : (s.drew).cmd = s.cmd := rfl
@[simp] theorem State.drew_arg : (s.drew).arg = s.arg := rfl
@[simp] theorem State.drew_status : (s.drew).status = s.status := rfl
@[simp] theorem State.drew_raw : (s.drew).raw = s.raw := rfl
@[simp] theorem State.drew_ohms : (s.drew).ohms = s.ohms := rfl
@[simp] theorem State.drew_temp : (s.drew).temp = s.temp := rfl
@[simp] theorem State.drew_cfgw : (s.drew).cfgw = s.cfgw := rfl
@[simp] theorem State.drew_cfgrb : (s.drew).cfgrb = s.cfgrb := rfl
@[simp] theorem State.drew_rxd : (s.drew).rxd = s.rxd := rfl
@[simp] theorem State.drew_phase : (s.drew).phase = s.phase := rfl
@[simp] theorem State.drew_opl : (s.drew).opl = s.opl := rfl
@[simp] theorem State.drew_xf : (s.drew).xf = s.xf := rfl
@[simp] theorem State.drew_cs : (s.drew).cs = s.cs := rfl
@[simp] theorem State.drew_sclk : (s.drew).sclk = s.sclk := rfl
@[simp] theorem State.drew_mosi : (s.drew).mosi = s.mosi := rfl
@[simp] theorem State.drew_rst : (s.drew).rst = s.rst := rfl
@[simp] theorem State.drew_held : (s.drew).held = s.held := rfl
@[simp] theorem State.drew_hist : (s.drew).hist = s.hist := rfl
@[simp] theorem State.drew_answers : (s.drew).answers = s.answers := rfl
@[simp] theorem State.drew_program : (s.drew).program = s.program := rfl
@[simp] theorem State.drew_turns : (s.drew).turns = s.turns := rfl
@[simp] theorem State.drew_spiIn : (s.drew).spiIn = s.spiIn.tail := rfl
@[simp] theorem State.drew_rdyIn : (s.drew).rdyIn = s.rdyIn := rfl
@[simp] theorem State.drew_draws : (s.drew).draws = s.draws + 1 := rfl

/-! `State.txDone` -/

@[simp] theorem State.txDone_params (kind : TxKind) (tx : List Byte) (rx : Rx) : (s.txDone kind tx rx).params = s.params := rfl
@[simp] theorem State.txDone_cmd (kind : TxKind) (tx : List Byte) (rx : Rx) : (s.txDone kind tx rx).cmd = s.cmd := rfl
@[simp] theorem State.txDone_arg (kind : TxKind) (tx : List Byte) (rx : Rx) : (s.txDone kind tx rx).arg = s.arg := rfl
@[simp] theorem State.txDone_status (kind : TxKind) (tx : List Byte) (rx : Rx) : (s.txDone kind tx rx).status = s.status := rfl
@[simp] theorem State.txDone_raw (kind : TxKind) (tx : List Byte) (rx : Rx) : (s.txDone kind tx rx).raw = s.raw := rfl
@[simp] theorem State.txDone_ohms (kind : TxKind) (tx : List Byte) (rx : Rx) : (s.txDone kind tx rx).ohms = s.ohms := rfl
@[simp] theorem State.txDone_temp (kind : TxKind) (tx : List Byte) (rx : Rx) : (s.txDone kind tx rx).temp = s.temp := rfl
@[simp] theorem State.txDone_cfgw (kind : TxKind) (tx : List Byte) (rx : Rx) : (s.txDone kind tx rx).cfgw = s.cfgw := rfl
@[simp] theorem State.txDone_cfgrb (kind : TxKind) (tx : List Byte) (rx : Rx) : (s.txDone kind tx rx).cfgrb = s.cfgrb := rfl
@[simp] theorem State.txDone_rxd (kind : TxKind) (tx : List Byte) (rx : Rx) : (s.txDone kind tx rx).rxd = s.rxd := rfl
@[simp] theorem State.txDone_phase (kind : TxKind) (tx : List Byte) (rx : Rx) : (s.txDone kind tx rx).phase = s.phase.advance := rfl
@[simp] theorem State.txDone_opl (kind : TxKind) (tx : List Byte) (rx : Rx) : (s.txDone kind tx rx).opl = s.opl.store kind s.phase.step rx := rfl
@[simp] theorem State.txDone_xf (kind : TxKind) (tx : List Byte) (rx : Rx) : (s.txDone kind tx rx).xf = none := rfl
@[simp] theorem State.txDone_cs (kind : TxKind) (tx : List Byte) (rx : Rx) : (s.txDone kind tx rx).cs = true := rfl
@[simp] theorem State.txDone_sclk (kind : TxKind) (tx : List Byte) (rx : Rx) : (s.txDone kind tx rx).sclk = true := rfl
@[simp] theorem State.txDone_mosi (kind : TxKind) (tx : List Byte) (rx : Rx) : (s.txDone kind tx rx).mosi = s.params.mosiIdle := rfl
@[simp] theorem State.txDone_rst (kind : TxKind) (tx : List Byte) (rx : Rx) : (s.txDone kind tx rx).rst = s.rst := rfl
@[simp] theorem State.txDone_held (kind : TxKind) (tx : List Byte) (rx : Rx) : (s.txDone kind tx rx).held = s.held := rfl
@[simp] theorem State.txDone_hist (kind : TxKind) (tx : List Byte) (rx : Rx) : (s.txDone kind tx rx).hist = s.hist ++ [⟨kind, tx, .bytes (received kind rx)⟩] := rfl
@[simp] theorem State.txDone_answers (kind : TxKind) (tx : List Byte) (rx : Rx) : (s.txDone kind tx rx).answers = s.answers := rfl
@[simp] theorem State.txDone_program (kind : TxKind) (tx : List Byte) (rx : Rx) : (s.txDone kind tx rx).program = s.program := rfl
@[simp] theorem State.txDone_turns (kind : TxKind) (tx : List Byte) (rx : Rx) : (s.txDone kind tx rx).turns = s.turns := rfl
@[simp] theorem State.txDone_spiIn (kind : TxKind) (tx : List Byte) (rx : Rx) : (s.txDone kind tx rx).spiIn = s.spiIn.tail := rfl
@[simp] theorem State.txDone_rdyIn (kind : TxKind) (tx : List Byte) (rx : Rx) : (s.txDone kind tx rx).rdyIn = s.rdyIn := rfl
@[simp] theorem State.txDone_draws (kind : TxKind) (tx : List Byte) (rx : Rx) : (s.txDone kind tx rx).draws = s.draws + 1 := rfl

/-! `State.txFail` -/

@[simp] theorem State.txFail_params (kind : TxKind) (tx : List Byte) : (s.txFail kind tx).params = s.params := rfl
@[simp] theorem State.txFail_cmd (kind : TxKind) (tx : List Byte) : (s.txFail kind tx).cmd = s.cmd := rfl
@[simp] theorem State.txFail_arg (kind : TxKind) (tx : List Byte) : (s.txFail kind tx).arg = s.arg := rfl
@[simp] theorem State.txFail_status (kind : TxKind) (tx : List Byte) : (s.txFail kind tx).status = s.status := rfl
@[simp] theorem State.txFail_raw (kind : TxKind) (tx : List Byte) : (s.txFail kind tx).raw = s.raw := rfl
@[simp] theorem State.txFail_ohms (kind : TxKind) (tx : List Byte) : (s.txFail kind tx).ohms = s.ohms := rfl
@[simp] theorem State.txFail_temp (kind : TxKind) (tx : List Byte) : (s.txFail kind tx).temp = s.temp := rfl
@[simp] theorem State.txFail_cfgw (kind : TxKind) (tx : List Byte) : (s.txFail kind tx).cfgw = s.cfgw := rfl
@[simp] theorem State.txFail_cfgrb (kind : TxKind) (tx : List Byte) : (s.txFail kind tx).cfgrb = s.cfgrb := rfl
@[simp] theorem State.txFail_rxd (kind : TxKind) (tx : List Byte) : (s.txFail kind tx).rxd = s.rxd := rfl
@[simp] theorem State.txFail_phase (kind : TxKind) (tx : List Byte) : (s.txFail kind tx).phase = s.phase := rfl
@[simp] theorem State.txFail_opl (kind : TxKind) (tx : List Byte) : (s.txFail kind tx).opl = { s.opl with failed := true } := rfl
@[simp] theorem State.txFail_xf (kind : TxKind) (tx : List Byte) : (s.txFail kind tx).xf = none := rfl
@[simp] theorem State.txFail_cs (kind : TxKind) (tx : List Byte) : (s.txFail kind tx).cs = true := rfl
@[simp] theorem State.txFail_sclk (kind : TxKind) (tx : List Byte) : (s.txFail kind tx).sclk = true := rfl
@[simp] theorem State.txFail_mosi (kind : TxKind) (tx : List Byte) : (s.txFail kind tx).mosi = s.params.mosiIdle := rfl
@[simp] theorem State.txFail_rst (kind : TxKind) (tx : List Byte) : (s.txFail kind tx).rst = s.rst := rfl
@[simp] theorem State.txFail_held (kind : TxKind) (tx : List Byte) : (s.txFail kind tx).held = s.held := rfl
@[simp] theorem State.txFail_hist (kind : TxKind) (tx : List Byte) : (s.txFail kind tx).hist = s.hist ++ [⟨kind, tx, .ioFail⟩] := rfl
@[simp] theorem State.txFail_answers (kind : TxKind) (tx : List Byte) : (s.txFail kind tx).answers = s.answers := rfl
@[simp] theorem State.txFail_program (kind : TxKind) (tx : List Byte) : (s.txFail kind tx).program = s.program := rfl
@[simp] theorem State.txFail_turns (kind : TxKind) (tx : List Byte) : (s.txFail kind tx).turns = s.turns := rfl
@[simp] theorem State.txFail_spiIn (kind : TxKind) (tx : List Byte) : (s.txFail kind tx).spiIn = s.spiIn.tail := rfl
@[simp] theorem State.txFail_rdyIn (kind : TxKind) (tx : List Byte) : (s.txFail kind tx).rdyIn = s.rdyIn := rfl
@[simp] theorem State.txFail_draws (kind : TxKind) (tx : List Byte) : (s.txFail kind tx).draws = s.draws + 1 := rfl

/-! `State.txHang` -/

@[simp] theorem State.txHang_params (kind : TxKind) (tx : List Byte) : (s.txHang kind tx).params = s.params := rfl
@[simp] theorem State.txHang_cmd (kind : TxKind) (tx : List Byte) : (s.txHang kind tx).cmd = s.cmd := rfl
@[simp] theorem State.txHang_arg (kind : TxKind) (tx : List Byte) : (s.txHang kind tx).arg = s.arg := rfl
@[simp] theorem State.txHang_status (kind : TxKind) (tx : List Byte) : (s.txHang kind tx).status = s.status := rfl
@[simp] theorem State.txHang_raw (kind : TxKind) (tx : List Byte) : (s.txHang kind tx).raw = s.raw := rfl
@[simp] theorem State.txHang_ohms (kind : TxKind) (tx : List Byte) : (s.txHang kind tx).ohms = s.ohms := rfl
@[simp] theorem State.txHang_temp (kind : TxKind) (tx : List Byte) : (s.txHang kind tx).temp = s.temp := rfl
@[simp] theorem State.txHang_cfgw (kind : TxKind) (tx : List Byte) : (s.txHang kind tx).cfgw = s.cfgw := rfl
@[simp] theorem State.txHang_cfgrb (kind : TxKind) (tx : List Byte) : (s.txHang kind tx).cfgrb = s.cfgrb := rfl
@[simp] theorem State.txHang_rxd (kind : TxKind) (tx : List Byte) : (s.txHang kind tx).rxd = s.rxd := rfl
@[simp] theorem State.txHang_phase (kind : TxKind) (tx : List Byte) : (s.txHang kind tx).phase = s.phase := rfl
@[simp] theorem State.txHang_opl (kind : TxKind) (tx : List Byte) : (s.txHang kind tx).opl = s.opl := rfl
@[simp] theorem State.txHang_xf (kind : TxKind) (tx : List Byte) : (s.txHang kind tx).xf = some ⟨kind, tx, hangPhase kind s.draws⟩ := rfl
@[simp] theorem State.txHang_cs (kind : TxKind) (tx : List Byte) : (s.txHang kind tx).cs = false := rfl
@[simp] theorem State.txHang_sclk (kind : TxKind) (tx : List Byte) : (s.txHang kind tx).sclk = Config.hangSclk s.draws := rfl
@[simp] theorem State.txHang_mosi (kind : TxKind) (tx : List Byte) : (s.txHang kind tx).mosi = Config.hangMosi s.draws := rfl
@[simp] theorem State.txHang_rst (kind : TxKind) (tx : List Byte) : (s.txHang kind tx).rst = s.rst := rfl
@[simp] theorem State.txHang_held (kind : TxKind) (tx : List Byte) : (s.txHang kind tx).held = s.held := rfl
@[simp] theorem State.txHang_hist (kind : TxKind) (tx : List Byte) : (s.txHang kind tx).hist = s.hist := rfl
@[simp] theorem State.txHang_answers (kind : TxKind) (tx : List Byte) : (s.txHang kind tx).answers = s.answers := rfl
@[simp] theorem State.txHang_program (kind : TxKind) (tx : List Byte) : (s.txHang kind tx).program = s.program := rfl
@[simp] theorem State.txHang_turns (kind : TxKind) (tx : List Byte) : (s.txHang kind tx).turns = s.turns := rfl
@[simp] theorem State.txHang_spiIn (kind : TxKind) (tx : List Byte) : (s.txHang kind tx).spiIn = s.spiIn.tail := rfl
@[simp] theorem State.txHang_rdyIn (kind : TxKind) (tx : List Byte) : (s.txHang kind tx).rdyIn = s.rdyIn := rfl
@[simp] theorem State.txHang_draws (kind : TxKind) (tx : List Byte) : (s.txHang kind tx).draws = s.draws + 1 := rfl

/-! `State.answer` -/

@[simp] theorem State.answer_params (a : Answer) : (s.answer a).params = s.params := rfl
@[simp] theorem State.answer_cmd (a : Answer) : (s.answer a).cmd = s.cmd := rfl
@[simp] theorem State.answer_arg (a : Answer) : (s.answer a).arg = s.arg := rfl
@[simp] theorem State.answer_status (a : Answer) : (s.answer a).status = s.status := rfl
@[simp] theorem State.answer_raw (a : Answer) : (s.answer a).raw = s.raw := rfl
@[simp] theorem State.answer_ohms (a : Answer) : (s.answer a).ohms = s.ohms := rfl
@[simp] theorem State.answer_temp (a : Answer) : (s.answer a).temp = s.temp := rfl
@[simp] theorem State.answer_cfgw (a : Answer) : (s.answer a).cfgw = s.cfgw := rfl
@[simp] theorem State.answer_cfgrb (a : Answer) : (s.answer a).cfgrb = s.cfgrb := rfl
@[simp] theorem State.answer_rxd (a : Answer) : (s.answer a).rxd = s.rxd := rfl
@[simp] theorem State.answer_phase (a : Answer) : (s.answer a).phase = s.phase := rfl
@[simp] theorem State.answer_opl (a : Answer) : (s.answer a).opl = s.opl := rfl
@[simp] theorem State.answer_xf (a : Answer) : (s.answer a).xf = s.xf := rfl
@[simp] theorem State.answer_cs (a : Answer) : (s.answer a).cs = s.cs := rfl
@[simp] theorem State.answer_sclk (a : Answer) : (s.answer a).sclk = s.sclk := rfl
@[simp] theorem State.answer_mosi (a : Answer) : (s.answer a).mosi = s.mosi := rfl
@[simp] theorem State.answer_rst (a : Answer) : (s.answer a).rst = s.rst := rfl
@[simp] theorem State.answer_held (a : Answer) : (s.answer a).held = s.held := rfl
@[simp] theorem State.answer_hist (a : Answer) : (s.answer a).hist = s.hist := rfl
@[simp] theorem State.answer_answers (a : Answer) : (s.answer a).answers = s.answers ++ [a] := rfl
@[simp] theorem State.answer_program (a : Answer) : (s.answer a).program = s.program := rfl
@[simp] theorem State.answer_turns (a : Answer) : (s.answer a).turns = s.turns := rfl
@[simp] theorem State.answer_spiIn (a : Answer) : (s.answer a).spiIn = s.spiIn := rfl
@[simp] theorem State.answer_rdyIn (a : Answer) : (s.answer a).rdyIn = s.rdyIn := rfl
@[simp] theorem State.answer_draws (a : Answer) : (s.answer a).draws = s.draws := rfl

/-! `State.assertReset` -/

@[simp] theorem State.assertReset_params : (s.assertReset).params = s.params := rfl
@[simp] theorem State.assertReset_cmd : (s.assertReset).cmd = 0#32 := rfl
@[simp] theorem State.assertReset_arg : (s.assertReset).arg = 0#32 := rfl
@[simp] theorem State.assertReset_status : (s.assertReset).status = Status.reset := rfl
@[simp] theorem State.assertReset_raw : (s.assertReset).raw = 0#16 := rfl
@[simp] theorem State.assertReset_ohms : (s.assertReset).ohms = 0#32 := rfl
@[simp] theorem State.assertReset_temp : (s.assertReset).temp = 0#32 := rfl
@[simp] theorem State.assertReset_cfgw : (s.assertReset).cfgw = 0#8 := rfl
@[simp] theorem State.assertReset_cfgrb : (s.assertReset).cfgrb = 0#8 := rfl
@[simp] theorem State.assertReset_rxd : (s.assertReset).rxd = 0#8 := rfl
@[simp] theorem State.assertReset_phase : (s.assertReset).phase = .idle := rfl
@[simp] theorem State.assertReset_opl : (s.assertReset).opl = Opl.reset := rfl
@[simp] theorem State.assertReset_xf : (s.assertReset).xf = none := rfl
@[simp] theorem State.assertReset_cs : (s.assertReset).cs = true := rfl
@[simp] theorem State.assertReset_sclk : (s.assertReset).sclk = true := rfl
@[simp] theorem State.assertReset_mosi : (s.assertReset).mosi = s.params.mosiIdle := rfl
@[simp] theorem State.assertReset_rst : (s.assertReset).rst = true := rfl
@[simp] theorem State.assertReset_held : (s.assertReset).held = none := rfl
@[simp] theorem State.assertReset_hist : (s.assertReset).hist = s.hist := rfl
@[simp] theorem State.assertReset_answers : (s.assertReset).answers = s.answers ++ heldAnswer s.held := rfl
@[simp] theorem State.assertReset_program : (s.assertReset).program = s.program := rfl
@[simp] theorem State.assertReset_turns : (s.assertReset).turns = s.turns := rfl
@[simp] theorem State.assertReset_spiIn : (s.assertReset).spiIn = s.spiIn := rfl
@[simp] theorem State.assertReset_rdyIn : (s.assertReset).rdyIn = s.rdyIn := rfl
@[simp] theorem State.assertReset_draws : (s.assertReset).draws = s.draws := rfl

end Sys2Proof.Machine
end

