-- ==== Sys2Proof/Laws/Wire.lean ====
section
/-! SUPPORT. What a bracket is, said once: its cycles, its edges, the bits sampled from it and the bytes they make. -/

namespace Sys2Proof.Machine

open Sys2Proof

/-- Eight bits of a byte make the byte again (R71). -/
theorem bitsByte_bits (b : Byte) :
    bitsByte (b.getLsbD 7) (b.getLsbD 6) (b.getLsbD 5) (b.getLsbD 4) (b.getLsbD 3) (b.getLsbD 2) (b.getLsbD 1)
      (b.getLsbD 0) = b := by
  revert b
  decide

/-- Bytes shifted out bit by bit are shifted in again. -/
@[simp] theorem shiftIn_bits (l : List Byte) : shiftIn (l.flatMap byteBits) = l := by
  induction l with
  | nil => rfl
  | cons b l ih =>
    show bitsByte _ _ _ _ _ _ _ _ :: shiftIn (l.flatMap byteBits) = _
    rw [bitsByte_bits, ih]

/-- After any levels with SCLK high, the block samples the bits that arrive, one in each cycle. -/
theorem sampledBits_bitCycles (a last : Levels) (hl : last.cs = true) (miso : List Bool) :
    ∀ (mosi : List Bool) (_ : a.sclk = true), sampledBits (a :: (bitCycles mosi miso ++ [last])) = miso := by
  induction miso generalizing a with
  | nil => intro mosi ha; simp [bitCycles, sampledBits, hl]
  | cons i miso ih => intro mosi ha; simp [bitCycles, bitCycle, sampledBits, ha, ih]

/-- The block samples from a bracket the bits that MISO carries in it (R116). -/
@[simp] theorem sampledBits_bracket (mosiIdle before after : Bool) (mosi miso : List Bool) :
    sampledBits (bracket mosiIdle before after mosi miso) = miso :=
  sampledBits_bitCycles _ _ rfl miso mosi rfl

/-- Cycle `k` of the clocked part of a bracket (R116): bit `k` on MOSI and on MISO, SCLK low and then high. -/
theorem bitCycles_cycle (last : List Levels) (miso : List Bool) : ∀ (mosi : List Bool) (k : Nat) (o i : Bool),
    mosi[k]? = some o → miso[k]? = some i →
    (bitCycles mosi miso ++ last)[2 * k]? = some ⟨false, false, o, i⟩ ∧
    (bitCycles mosi miso ++ last)[2 * k + 1]? = some ⟨false, true, o, i⟩ := by
  induction miso with
  | nil => intro mosi k o i _ hi; simp at hi
  | cons m miso ih =>
    intro mosi k o i ho hi
    cases mosi with
    | nil => simp at ho
    | cons b mosi =>
      cases k with
      | zero => simp_all [bitCycles, bitCycle]
      | succ k => simpa [bitCycles, bitCycle, Nat.mul_succ] using ih mosi k o i ho hi

/-- Cycle `k` of a bracket stands at places `2 k + 1` and `2 k + 2` (R110, R116). -/
theorem bracket_cycle {mosiIdle before after : Bool} {mosi miso : List Bool} {k : Nat} {o i : Bool}
    (ho : mosi[k]? = some o) (hi : miso[k]? = some i) :
    (bracket mosiIdle before after mosi miso)[2 * k + 1]? = some ⟨false, false, o, i⟩ ∧
    (bracket mosiIdle before after mosi miso)[2 * k + 2]? = some ⟨false, true, o, i⟩ :=
  bitCycles_cycle _ miso mosi k o i ho hi

theorem bitCycles_length (miso : List Bool) : ∀ mosi, (bitCycles mosi miso).length = 2 * miso.length := by
  induction miso with
  | nil => intro mosi; rfl
  | cons i miso ih => intro mosi; simp [bitCycles, bitCycle, ih]; omega

/-- A bracket has two levels a bit, and one at each end. -/
@[simp] theorem bracket_length (mosiIdle before after : Bool) (mosi miso : List Bool) :
    (bracket mosiIdle before after mosi miso).length = 2 * miso.length + 2 := by
  simp [bracket, bitCycles_length]

theorem risingEdges_bitCycles (a last : Levels) (miso : List Bool) :
    ∀ (mosi : List Bool) (_ : a.sclk = true), risingEdges (a :: (bitCycles mosi miso ++ [last])) = miso.length := by
  induction miso generalizing a with
  | nil => intro mosi ha; simp [bitCycles, risingEdges, ha]
  | cons i miso ih => intro mosi ha; simp [bitCycles, bitCycle, risingEdges, ha, ih]; omega

/-- One rising edge of SCLK a bit (R116). -/
@[simp] theorem risingEdges_bracket (mosiIdle before after : Bool) (mosi miso : List Bool) :
    risingEdges (bracket mosiIdle before after mosi miso) = miso.length :=
  risingEdges_bitCycles _ _ miso mosi rfl

theorem bitCycles_cs (miso : List Bool) : ∀ mosi, ∀ l ∈ bitCycles mosi miso, l.cs = false := by
  induction miso with
  | nil => intro mosi l h; simp [bitCycles] at h
  | cons i miso ih =>
    intro mosi l h
    simp only [bitCycles, bitCycle, List.cons_append, List.nil_append, List.mem_cons] at h
    rcases h with rfl | rfl | h
    · rfl
    · rfl
    · exact ih _ l h

/-- CS is 0 throughout a bracket, until it rises at the end (R110). -/
theorem bracket_cs (mosiIdle before after : Bool) (mosi miso : List Bool) :
    ∀ l ∈ (bracket mosiIdle before after mosi miso).dropLast, l.cs = false := by
  intro l h
  rw [bracket, ← List.cons_append, List.dropLast_concat, List.mem_cons] at h
  rcases h with rfl | h
  · rfl
  · exact bitCycles_cs miso mosi l h

/-- FULL and HALF capture the bytes the peripheral answers (R111, R112). -/
theorem captured_transaction (p : Params) (draw : Nat) (kind : TxKind) (tx : List Byte) (rx : Rx) (h : kind ≠ .write) :
    captured kind (transactionLevels p draw kind tx rx) = rx := by
  unfold captured transactionLevels
  rw [sampledBits_bracket, shiftIn_bits]
  cases kind with
  | full => rfl
  | half => rfl
  | write => exact absurd rfl h

/-- A broken-off bracket is a beginning of the whole one, closed by the rise of CS (R110, R115). -/
theorem brokenOff_prefix (p : Params) (draw : Nat) (phase : BusPhase) (after : Nat) (wire : List Levels) :
    (brokenOff p draw phase after wire).dropLast <+: wire := by
  rw [brokenOff, List.dropLast_concat]
  exact List.take_prefix ..

/-- How long a bracket broken off is: its first level, the cycles' levels until then, as far as there are, and its last. -/
theorem brokenOff_length (p : Params) (draw : Nat) (phase : BusPhase) (after : Nat) (wire : List Levels) :
    (brokenOff p draw phase after wire).length = min (1 + (levelsBefore phase + after % 33)) wire.length + 1 := by
  simp [brokenOff]

@[simp] theorem brokenOff_getLast (p : Params) (draw : Nat) (phase : BusPhase) (after : Nat) (wire : List Levels) :
    (brokenOff p draw phase after wire).getLast? = some ⟨true, true, p.mosiIdle, Config.misoAfter draw⟩ := by
  simp [brokenOff]

/-- Every level of a bracket but the last, so every level of a beginning of it that is not whole, has CS at 0 (R110). -/
theorem bracket_take_cs {mosiIdle before after : Bool} {mosi miso : List Bool} {n : Nat} (hn : n ≤ 2 * miso.length + 1) :
    ∀ l ∈ (bracket mosiIdle before after mosi miso).take n, l.cs = false := by
  intro l h
  refine bracket_cs mosiIdle before after mosi miso l ?_
  rw [List.dropLast_eq_take, bracket_length]
  exact (List.take_prefix_take_left (by omega)).mem h

/-- CS is 0 in a failed transaction's bracket until it is broken off (R110). -/
theorem failedLevels_cs (p : Params) (draw : Nat) (kind : TxKind) (tx : List Byte) :
    ∀ l ∈ (failedLevels p draw kind tx).dropLast, l.cs = false := by
  rw [failedLevels, brokenOff, List.dropLast_concat, transactionLevels]
  apply bracket_take_cs
  have := Nat.mod_lt (Config.failedAfter draw) (by decide : 0 < 33)
  cases kind with
  | full => simp [misoBytes, byteBits, failPhase, stopPhase, levelsBefore]; omega
  | half => simp only [failPhase, stopPhase]; split <;> simp [misoBytes, byteBits, levelsBefore] <;> omega
  | write => simp [misoBytes, byteBits, failPhase, stopPhase, levelsBefore]; omega

end Sys2Proof.Machine
end

