-- ==== Sys2Proof/Laws/Ops.lean ====
section
/-! SUPPORT. For each shared operation one lemma that says everything it can do. -/

namespace Sys2Proof.Machine

open Sys2Proof

@[simp] theorem Opl.store_w (o : Opl) (kind : TxKind) (n : Nat) (rx : Rx) : (o.store kind n rx).w = o.w := by
  cases kind <;> simp only [Opl.store] <;> split <;> rfl

@[simp] theorem Opl.store_arg (o : Opl) (kind : TxKind) (n : Nat) (rx : Rx) : (o.store kind n rx).arg = o.arg := by
  cases kind <;> simp only [Opl.store] <;> split <;> rfl

@[simp] theorem Opl.store_failed (o : Opl) (kind : TxKind) (n : Nat) (rx : Rx) :
    (o.store kind n rx).failed = o.failed := by
  cases kind <;> simp only [Opl.store] <;> split <;> rfl

@[simp] theorem Phase.step_idle : Phase.idle.step = 0 := rfl

@[simp] theorem Phase.step_exec (op : BitVec 4) (n : Nat) : (Phase.exec op n).step = n := rfl

@[simp] theorem Phase.advance_exec (op : BitVec 4) (n : Nat) : (Phase.exec op n).advance = .exec op (n + 1) := rfl

/-- What a completed transaction leaves does not depend on the way from the wire: WRITE captures nothing (R113). -/
theorem txDone_shiftedIn (kind : TxKind) (tx : List Byte) (rx : Rx) (s : State) :
    s.txDone kind tx (s.shiftedIn kind tx rx) = s.txDone kind tx rx := by
  cases kind with
  | full => rw [State.shiftedIn, captured_transaction _ _ _ _ _ (by decide)]
  | half => rw [State.shiftedIn, captured_transaction _ _ _ _ _ (by decide)]
  | write => rfl

theorem transact_of_done {kind : TxKind} {tx : List Byte} {s : State} {rx0 rx1 : Byte}
    (h : s.spiAnswer kind tx = .done rx0 rx1) : s.transact kind tx = s.txDone kind tx ⟨rx0, rx1⟩ := by
  simp only [State.transact, h, txDone_shiftedIn]

/-- A transaction completes, fails or hangs, as the oracle's answer says (R72). -/
theorem transact_cases (kind : TxKind) (tx : List Byte) (s : State) :
    (∃ rx0 rx1, s.spiAnswer kind tx = .done rx0 rx1 ∧ s.transact kind tx = s.txDone kind tx ⟨rx0, rx1⟩) ∨
    (s.spiAnswer kind tx = .ioFail ∧ s.transact kind tx = s.txFail kind tx) ∨
    (s.spiAnswer kind tx = .hang ∧ s.transact kind tx = s.txHang kind tx) := by
  unfold State.transact
  cases h : s.spiAnswer kind tx with
  | done rx0 rx1 => exact .inl ⟨rx0, rx1, rfl, txDone_shiftedIn ..⟩
  | ioFail => exact .inr (.inl ⟨rfl, rfl⟩)
  | hang => exact .inr (.inr ⟨rfl, rfl⟩)

theorem transact_of_ioFail {kind : TxKind} {tx : List Byte} {s : State}
    (h : s.spiAnswer kind tx = .ioFail) : s.transact kind tx = s.txFail kind tx := by
  simp only [State.transact, h]

theorem transact_of_hang {kind : TxKind} {tx : List Byte} {s : State}
    (h : s.spiAnswer kind tx = .hang) : s.transact kind tx = s.txHang kind tx := by
  simp only [State.transact, h]

/-- The step of a one-transaction command: its IO error, its transaction, or its commit. -/
theorem oneTransaction_cases (kind : TxKind) (tx : List Byte) (commit : State → State) (s : State) :
    (s.opl.failed = true ∧ oneTransaction kind tx commit s = s.finish .io) ∨
    (s.opl.failed = false ∧ s.phase.step = 0 ∧ oneTransaction kind tx commit s = s.transact kind tx) ∨
    (s.opl.failed = false ∧ 1 ≤ s.phase.step ∧ oneTransaction kind tx commit s = commit s) := by
  unfold oneTransaction
  cases hf : s.opl.failed with
  | true => exact .inl ⟨rfl, rfl⟩
  | false =>
    cases hn : s.phase.step with
    | zero => exact .inr (.inl ⟨rfl, rfl, rfl⟩)
    | succ n => exact .inr (.inr ⟨rfl, by omega, rfl⟩)

/-- The step of a two-transaction command: its IO error, its first or second transaction, or its commit. -/
theorem twoTransactions_cases (kind1 : TxKind) (tx1 : List Byte) (kind2 : TxKind) (tx2 : List Byte)
    (onFail commit : State → State) (s : State) :
    (s.opl.failed = true ∧ twoTransactions kind1 tx1 kind2 tx2 onFail commit s = onFail s) ∨
    (s.opl.failed = false ∧ s.phase.step = 0 ∧
      twoTransactions kind1 tx1 kind2 tx2 onFail commit s = s.transact kind1 tx1) ∨
    (s.opl.failed = false ∧ s.phase.step = 1 ∧
      twoTransactions kind1 tx1 kind2 tx2 onFail commit s = s.transact kind2 tx2) ∨
    (s.opl.failed = false ∧ 2 ≤ s.phase.step ∧ twoTransactions kind1 tx1 kind2 tx2 onFail commit s = commit s) := by
  unfold twoTransactions
  cases hf : s.opl.failed with
  | true => exact .inl ⟨rfl, rfl⟩
  | false =>
    match hn : s.phase.step with
    | 0 => exact .inr (.inl ⟨rfl, rfl, rfl⟩)
    | 1 => exact .inr (.inr (.inl ⟨rfl, rfl, rfl⟩))
    | n + 2 => exact .inr (.inr (.inr ⟨rfl, by omega, rfl⟩))

/-- What a write to the window does, out of reset or in it (R23, R24, R63, R65, R260). -/
theorem writeWindow_cases (off n : Nat) (v : Word) (s : State) :
    writeWindow off n v s = s.answer .busErr ∨
    (s.rst = false ∧ s.status.busy = true ∧ writeWindow off n v s = { s with held := some v }) ∨
    (s.rst = false ∧ s.status.busy = false ∧ writeWindow off n v s = (s.issue v).answer .ok) ∨
    (s.rst = false ∧ writeWindow off n v s = { s with arg := v }.answer .ok) := by
  unfold writeWindow
  split
  · exact .inl rfl
  · rename_i h
    have hr : s.rst = false := by
      cases hrst : s.rst with
      | false => rfl
      | true => simp [hrst] at h
    split
    · split
      · exact .inr (.inl ⟨hr, ‹_›, rfl⟩)
      · exact .inr (.inr (.inl ⟨hr, Bool.eq_false_iff.mpr ‹_›, rfl⟩))
    · exact .inr (.inr (.inr ⟨hr, rfl⟩))
    all_goals exact .inl rfl

/-- Each register is found at its offset (R22). -/
@[simp] theorem ofOffset_offset (r : Reg) : Reg.ofOffset r.offset = some r := by cases r <;> rfl

/-- A 4-byte read at a register's offset, out of reset, gives the register (R60, R64). -/
theorem readAnswer_register (s : State) (r : Reg) (h : s.rst = false) :
    readAnswer s r.offset 4 = .data (r.read s) := by
  have hshape : acceptedShape r.offset 4 = true := by cases r <;> rfl
  simp [readAnswer, h, hshape]

/-- In reset every read is a bus error (R260). -/
theorem readAnswer_reset (s : State) (off n : Nat) (h : s.rst = true) : readAnswer s off n = .busErr := by
  simp [readAnswer, h]

end Sys2Proof.Machine
end

