-- ==== Sys2Proof/Laws/Exec.lean ====
section
/-! SUPPORT. What one step of a running command can do, said once for all commands. -/

namespace Sys2Proof.Machine

open Sys2Proof

/-- No command's step stops the machine. -/
theorem exec_next (i : Instr) (s : State) : ∃ t, exec i s = .next t := by
  cases i <;> exact ⟨_, rfl⟩

/-- What no commit changes: everything but the result registers, STATUS and PHASE, and the draw of a ready sample. -/
structure CommitFrame (s t : State) : Prop where
  params : t.params = s.params
  cmd : t.cmd = s.cmd
  arg : t.arg = s.arg
  opl : t.opl = s.opl
  xf : t.xf = s.xf
  pins : t.cs = s.cs ∧ t.sclk = s.sclk ∧ t.mosi = s.mosi
  rst : t.rst = s.rst
  held : t.held = s.held
  hist : t.hist = s.hist
  answers : t.answers = s.answers
  program : t.program = s.program
  turns : t.turns = s.turns
  spiIn : t.spiIn = s.spiIn

/-- A step of a running command is a transaction of it or its commit (R80, R110). -/
inductive ExecStep (i : Instr) (s t : State) : Prop where
  | transaction (kind : TxKind) (tx : List Byte) (failed : s.opl.failed = false)
      (more : s.phase.step < transactionsOf i)
      (sent : (busTraffic s.params i)[s.phase.step]? = some (kind, tx))
      (allowed : i = .readRaw ∨ i = .measure → s.status.state = .unconfigured → s.phase.step ≠ 0)
      (eq : t = s.transact kind tx)
  | commit (idle : t.phase = .idle) (done : t.status.busy = false) (frame : CommitFrame s t)

theorem commitFrame_finish (code : ErrCode) (s : State) : CommitFrame s (s.finish code) :=
  ⟨rfl, rfl, rfl, rfl, rfl, ⟨rfl, rfl, rfl⟩, rfl, rfl, rfl, rfl, rfl, rfl, rfl⟩

/-- The traffic of a command is as long as its count of transactions says. -/
theorem busTraffic_length (p : Params) (i : Instr) : (busTraffic p i).length = transactionsOf i := by cases i <;> rfl

theorem execStep_one {i : Instr} {kind : TxKind} {tx : List Byte} {commit : State → State} {s t : State}
    (hi : busTraffic s.params i = [(kind, tx)]) (hn : ¬(i = .readRaw ∨ i = .measure)) (hc : ExecStep i s (commit s))
    (h : t = oneTransaction kind tx commit s) :
    ExecStep i s t := by
  subst h
  have hl := busTraffic_length s.params i
  rw [hi, List.length_singleton] at hl
  rcases oneTransaction_cases kind tx commit s with ⟨_, e⟩ | ⟨hf, h0, e⟩ | ⟨_, _, e⟩ <;> rw [e]
  · exact .commit rfl rfl (commitFrame_finish .io s)
  · exact .transaction kind tx hf (by omega) (by rw [hi, h0]; rfl) (fun h => absurd h hn) rfl
  · exact hc

theorem execStep_two {i : Instr} {kind1 kind2 : TxKind} {tx1 tx2 : List Byte} {onFail commit : State → State}
    {s t : State} (hi : busTraffic s.params i = [(kind1, tx1), (kind2, tx2)])
    (ha : i = .readRaw ∨ i = .measure → s.status.state = .unconfigured → s.phase.step ≠ 0)
    (hf : ExecStep i s (onFail s)) (hc : ExecStep i s (commit s))
    (h : t = twoTransactions kind1 tx1 kind2 tx2 onFail commit s) : ExecStep i s t := by
  subst h
  have hl : 2 = transactionsOf i := by rw [← busTraffic_length s.params i, hi]; rfl
  rcases twoTransactions_cases kind1 tx1 kind2 tx2 onFail commit s with ⟨_, e⟩ | ⟨h0, hn, e⟩ | ⟨h0, hn, e⟩ | ⟨_, _, e⟩ <;>
    rw [e]
  · exact hf
  · exact .transaction kind1 tx1 h0 (by omega) (by rw [hi, hn]; rfl) ha rfl
  · exact .transaction kind2 tx2 h0 (by omega) (by rw [hi, hn]; rfl) ha rfl
  · exact hc

/-- The inversion of `exec`: every later proof about a command's step starts here. -/
theorem exec_step {i : Instr} {s t : State} (h : exec i s = .next t) : ExecStep i s t := by
  have frame : ∀ {u : State}, CommitFrame s u → u.phase = .idle → u.status.busy = false → ExecStep i s u :=
    fun f hp hb => .commit hp hb f
  cases i with
  | configure cfg =>
    have h' := (Host.Outcome.next.inj h).symm
    refine execStep_two rfl (by simp) (frame ⟨rfl, rfl, rfl, rfl, rfl, ⟨rfl, rfl, rfl⟩, rfl, rfl, rfl, rfl, rfl, rfl, rfl⟩ rfl rfl)
      ?_ h'
    unfold configureCommits
    split
    · exact frame ⟨rfl, rfl, rfl, rfl, rfl, ⟨rfl, rfl, rfl⟩, rfl, rfl, rfl, rfl, rfl, rfl, rfl⟩ rfl rfl
    · exact frame ⟨rfl, rfl, rfl, rfl, rfl, ⟨rfl, rfl, rfl⟩, rfl, rfl, rfl, rfl, rfl, rfl, rfl⟩ rfl rfl
  | isReady =>
    have h' := (Host.Outcome.next.inj h).symm
    subst h'
    split
    · exact frame ⟨rfl, rfl, rfl, rfl, rfl, ⟨rfl, rfl, rfl⟩, rfl, rfl, rfl, rfl, rfl, rfl, rfl⟩ rfl rfl
    · exact frame (commitFrame_finish _ _) rfl rfl
  | readRaw =>
    have h' := (Host.Outcome.next.inj h).symm
    revert h'
    split
    · intro h'
      subst h'
      exact frame (commitFrame_finish _ _) rfl rfl
    · rename_i hr
      exact execStep_two rfl (fun _ hu h0 => hr (by simp [refusedByState, hu, h0])) (frame (commitFrame_finish _ _) rfl rfl)
        (frame ⟨rfl, rfl, rfl, rfl, rfl, ⟨rfl, rfl, rfl⟩, rfl, rfl, rfl, rfl, rfl, rfl, rfl⟩ rfl rfl)
  | measure =>
    have h' := (Host.Outcome.next.inj h).symm
    revert h'
    split
    · intro h'
      subst h'
      exact frame (commitFrame_finish _ _) rfl rfl
    · rename_i hr
      exact execStep_two rfl (fun _ hu h0 => hr (by simp [refusedByState, hu, h0])) (frame (commitFrame_finish _ _) rfl rfl)
        (frame ⟨rfl, rfl, rfl, rfl, rfl, ⟨rfl, rfl, rfl⟩, rfl, rfl, rfl, rfl, rfl, rfl, rfl⟩ rfl rfl)
  | decode =>
    have h' := (Host.Outcome.next.inj h).symm
    subst h'
    exact frame ⟨rfl, rfl, rfl, rfl, rfl, ⟨rfl, rfl, rfl⟩, rfl, rfl, rfl, rfl, rfl, rfl, rfl⟩ rfl rfl
  | lookup =>
    have h' := (Host.Outcome.next.inj h).symm
    subst h'
    exact frame ⟨rfl, rfl, rfl, rfl, rfl, ⟨rfl, rfl, rfl⟩, rfl, rfl, rfl, rfl, rfl, rfl, rfl⟩ rfl rfl
  | softReset =>
    have h' := (Host.Outcome.next.inj h).symm
    subst h'
    exact frame ⟨rfl, rfl, rfl, rfl, rfl, ⟨rfl, rfl, rfl⟩, rfl, rfl, rfl, rfl, rfl, rfl, rfl⟩ rfl rfl
  | rwHalf a v =>
    have h' := (Host.Outcome.next.inj h).symm
    exact execStep_one rfl (by simp) (frame ⟨rfl, rfl, rfl, rfl, rfl, ⟨rfl, rfl, rfl⟩, rfl, rfl, rfl, rfl, rfl, rfl, rfl⟩ rfl rfl) h'
  | xfer a =>
    have h' := (Host.Outcome.next.inj h).symm
    exact execStep_one rfl (by simp) (frame ⟨rfl, rfl, rfl, rfl, rfl, ⟨rfl, rfl, rfl⟩, rfl, rfl, rfl, rfl, rfl, rfl, rfl⟩ rfl rfl) h'
  | writeReg idx v =>
    have h' := (Host.Outcome.next.inj h).symm
    exact execStep_one rfl (by simp) (frame (commitFrame_finish _ _) rfl rfl) h'
  | readReg idx =>
    have h' := (Host.Outcome.next.inj h).symm
    exact execStep_one rfl (by simp) (frame ⟨rfl, rfl, rfl, rfl, rfl, ⟨rfl, rfl, rfl⟩, rfl, rfl, rfl, rfl, rfl, rfl, rfl⟩ rfl rfl) h'

end Sys2Proof.Machine
end

