-- ==== Sys2Proof/Laws/PerInstr.lean ====
section
/-! SUPPORT. Families of statements made per command, one lemma per constructor of Instr. -/

/-! EncodedFields: the word of a command has the opcode, the A and the V of its row of R92, and zeros in RSV (R90). -/

namespace Sys2Proof.Laws.EncodedFields

open Sys2Proof

/-- The fields of a command's word are the row's. -/
def Statement (i : Instr) : Prop :=
  rsvOf (encode i) = 0#12 ∧ opcOf (encode i) = i.opc ∧ aOf (encode i) = i.aField ∧ vOf (encode i) = i.vField

theorem any (i : Instr) : Statement i := by simp [Statement, encode]

theorem configure (cfg : Cfg) : Statement (.configure cfg) := any _
theorem isReady : Statement .isReady := any _
theorem readRaw : Statement .readRaw := any _
theorem decode : Statement .decode := any _
theorem lookup : Statement .lookup := any _
theorem measure : Statement .measure := any _
theorem rwHalf (a v : Byte) : Statement (.rwHalf a v) := any _
theorem xfer (a : Byte) : Statement (.xfer a) := any _
theorem writeReg (i v : Byte) : Statement (.writeReg i v) := any _
theorem readReg (i : Byte) : Statement (.readReg i) := any _
theorem softReset : Statement .softReset := any _

end Sys2Proof.Laws.EncodedFields
end

