-- ==== Sys2Proof/Laws/Step.lean ====
section
/-! SUPPORT. What one step of the machine can do, said once. -/

namespace Sys2Proof.Machine

open Sys2Proof

/-- What the host's turn can do; `p` is what is left of its program. -/
inductive HostStep (s t : State) : Prop where
  | waits (eq : t = s)
  | answered (p : List HostOp) (a : Answer) (eq : t = { s with program := p }.answer a)
  | holds (p : List HostOp) (v : Word) (out : s.rst = false) (busy : s.status.busy = true) (free : s.held = none)
      (eq : t = { s with program := p, held := some v })
  | issues (p : List HostOp) (v : Word) (out : s.rst = false) (free : s.status.busy = false)
      (eq : t = ({ s with program := p }.issue v).answer .ok)
  | writesArg (p : List HostOp) (v : Word) (out : s.rst = false) (eq : t = { s with program := p, arg := v }.answer .ok)
  | completes (w : Word) (held : s.held = some w) (free : s.status.busy = false)
      (eq : t = ({ s with held := none }.issue w).answer .ok)

theorem hostStep_write {s : State} (p : List HostOp) (off n : Nat) (v : Word) (hn : s.held = none) :
    HostStep s (writeWindow off n v { s with program := p }) := by
  rcases writeWindow_cases off n v { s with program := p } with e | ⟨hr, hb, e⟩ | ⟨hr, hb, e⟩ | ⟨hr, e⟩ <;> rw [e]
  · exact .answered p .busErr rfl
  · exact .holds p v hr hb hn rfl
  · exact .issues p v hr hb rfl
  · exact .writesArg p v hr rfl

theorem hostTurn_step {s t : State} (h : hostTurn s = .next t) : HostStep s t := by
  unfold hostTurn at h
  split at h
  · rename_i w hw
    cases h
    unfold State.completeHeld
    split
    · exact .waits rfl
    · exact .completes w hw (Bool.eq_false_iff.mpr ‹_›) rfl
  · rename_i hn
    split at h
    · cases h
      exact .waits rfl
    · rename_i op rest _
      cases op with
      | read addr n =>
        simp only [hostOperation, hostRead] at h
        split at h
        · cases h
        · cases h
          exact .answered rest _ rfl
      | write addr n v =>
        simp only [hostOperation, hostWrite] at h
        split at h
        · cases h
        · cases h
          exact hostStep_write rest _ n v hn
      | wait =>
        cases h
        exact .answered _ _ rfl
      | pollReady =>
        cases h
        exact hostStep_write _ _ _ _ hn
      | pollCheck =>
        cases h
        exact .answered _ _ rfl

/-- What one step can do: `u` is the state with its turn taken off, and nothing else changed. -/
inductive AgentStep (s t : State) : Prop where
  | reset (level : Bool) (rest : List Turn) (turn : s.turns = .rst level :: rest)
      (eq : t = { s with turns := rest }.resetTurn level)
  | command (rest : List Turn) (i : Instr) (turn : s.turns = .ctrl :: rest ∨ s.turns = []) (ready : s.controllerReady = true) (dec : decodeWord s.opl.w = .command i)
      (eq : exec i { s with turns := rest } = .next t)
  | illegal (rest : List Turn) (why : Illegal) (turn : s.turns = .ctrl :: rest ∨ s.turns = []) (ready : s.controllerReady = true)
      (dec : decodeWord s.opl.w = .illegal why) (eq : t = { s with turns := rest }.finish .illegal)
  | waits (rest : List Turn) (eq : t = { s with turns := rest })
  | host (rest : List Turn) (eq : HostStep { s with turns := rest } t)

theorem runCommand_step {s t : State} (rest : List Turn) (ht : s.turns = .ctrl :: rest ∨ s.turns = []) (hr : s.controllerReady = true)
    (h : runCommand { s with turns := rest } = .next t) : AgentStep s t := by
  unfold runCommand at h
  split at h
  · exact .command rest _ ht hr ‹_› h
  · cases h
    exact .illegal rest _ ht hr ‹_› rfl

theorem controllerTurn_step {s t : State} (rest : List Turn) (ht : s.turns = .ctrl :: rest) (h : controllerTurn { s with turns := rest } = .next t) :
    AgentStep s t := by
  unfold controllerTurn at h
  split at h
  · exact runCommand_step rest (.inl ht) ‹_› h
  · cases h
    exact .waits rest rfl

/-- The inversion of `step`. -/
theorem step_cases {s t : State} (h : step s = .next t) : s.params.legal = true ∧ AgentStep s t := by
  unfold step agentStep at h
  split at h
  · refine ⟨‹_›, ?_⟩
    split at h
    · cases h
      exact .reset _ _ ‹_› rfl
    · exact controllerTurn_step _ ‹_› h
    · exact .host _ (hostTurn_step h)
    · rename_i ht
      have hs : { s with turns := [] } = s := by
        cases s
        simp_all
      split at h
      · exact runCommand_step [] (.inr ht) ‹_› (by rwa [hs])
      · exact .host [] (by rw [hs]; exact hostTurn_step h)
  · cases h

end Sys2Proof.Machine
end

