-- ==== Sys2Proof/Machine/Assembly.lean ====
section
/-! DEFINITION. The text a host program is written in: the command lines of R99, the accesses of R100 and the
pseudo-instructions of R101, read from characters. -/

namespace Sys2Proof.Machine

open Sys2Proof

/-- The tokens of a line: runs of other characters, and each comma alone; spaces only separate. `cur` is the token being
read, last character first. -/
def tokensFrom (cur : List Char) : List Char → List (List Char)
  | [] => if cur.isEmpty then [] else [cur.reverse]
  | c :: cs =>
    if c = ' ' then (if cur.isEmpty then [] else [cur.reverse]) ++ tokensFrom [] cs
    else if c = ',' then (if cur.isEmpty then [] else [cur.reverse]) ++ [','] :: tokensFrom [] cs
    else tokensFrom (c :: cur) cs

/-- The value of a decimal or `0x` hex digit below a radix. -/
def digitValue (radix : Nat) (c : Char) : Option Nat :=
  let n := c.toNat
  let d := if 48 ≤ n ∧ n ≤ 57 then n - 48 else if 97 ≤ n ∧ n ≤ 102 then n - 87 else if 65 ≤ n ∧ n ≤ 70 then n - 55 else radix
  if d < radix then some d else none

/-- The value of a digit string, after the digits already read. -/
def digitsValue (radix acc : Nat) : List Char → Option Nat
  | [] => some acc
  | c :: cs =>
    match digitValue radix c with
    | some d => digitsValue radix (acc * radix + d) cs
    | none => none

/-- A number in decimal or `0x` hex (R99). -/
def numberValue : List Char → Option Nat
  | [] => none
  | '0' :: 'x' :: c :: cs => digitsValue 16 0 (c :: cs)
  | c :: cs => digitsValue 10 0 (c :: cs)

/-- A number of at most `k` bits, as a word of `w` bits. -/
def numberBits (k w : Nat) (tok : List Char) : Option (BitVec w) :=
  match numberValue tok with
  | some n => if n < 2 ^ k then some (BitVec.ofNat w n) else none
  | none => none

/-- The rest of a token after a prefix, if it has it. -/
def afterPrefix : List Char → List Char → Option (List Char)
  | [], rest => some rest
  | _ :: _, [] => none
  | p :: ps, c :: cs => if p = c then afterPrefix ps cs else none

/-- The value of a `key=value` token. -/
def keyValue (key : String) (tok : List Char) : Option (List Char) := afterPrefix (key.toList ++ ['=']) tok

/-- `<0|1>`. -/
def bitValue : List Char → Option Bool
  | ['0'] => some false
  | ['1'] => some true
  | _ => none

/-- `wire=<2|3|4>`. -/
def wireValue : List Char → Option Wire
  | ['2'] => some .two
  | ['3'] => some .three
  | ['4'] => some .four
  | _ => none

/-- `filter=<50|60>`. -/
def filterValue : List Char → Option Filter
  | ['5', '0'] => some .hz50
  | ['6', '0'] => some .hz60
  | _ => none

/-- An immediate `#n` of 32 bits (R101). -/
def immediateValue (tok : List Char) : Option Word := (afterPrefix ['#'] tok).bind (numberBits 32 32)

/-- The operands of CONFIGURE (R99). -/
def configureLine : List (List Char) → Option Line
  | [v, [','], c, [','], o, [','], w, [','], f] => do
    let vbias ← (keyValue "vbias" v).bind bitValue
    let cmode ← (keyValue "cmode" c).bind bitValue
    let oneShot ← (keyValue "oneshot" o).bind bitValue
    let wire ← (keyValue "wire" w).bind wireValue
    let filter ← (keyValue "filter" f).bind filterValue
    some (.command (.configure { vbias := vbias, cmode := cmode, oneShot := oneShot, wire := wire, filter := filter }))
  | _ => none

/-- The operands of START_CONVERSION (R101). -/
def startLine : List (List Char) → Option Line
  | [v, [','], w, [','], f] => do
    let vbias ← (keyValue "vbias" v).bind bitValue
    let wire ← (keyValue "wire" w).bind wireValue
    let filter ← (keyValue "filter" f).bind filterValue
    some (.startConversion vbias wire filter)
  | _ => none

/-- A line with no operand. -/
def bareLine (l : Line) : List (List Char) → Option Line
  | [] => some l
  | _ :: _ => none

/-- A line with one number of `k` bits, used as a byte. -/
def oneByteLine (k : Nat) (f : Byte → Line) : List (List Char) → Option Line
  | [a] => (numberBits k 8 a).map f
  | _ => none

/-- A line with a number of `k` bits and a value byte. -/
def twoByteLine (k : Nat) (f : Byte → Byte → Line) : List (List Char) → Option Line
  | [a, [','], v] => do
    let x ← numberBits k 8 a
    let y ← numberBits 8 8 v
    some (f x y)
  | _ => none

/-- DECODE and LOOKUP: the command, or the pseudo-instruction with an immediate (R101). -/
def immediateLine (l : Line) (f : Word → Line) : List (List Char) → Option Line
  | [] => some l
  | [tok] => (immediateValue tok).map f
  | _ => none

/-- `SW off, v32` (R100). -/
def swLine : List (List Char) → Option Line
  | [o, [','], v] => do
    let off ← numberValue o
    let w ← numberBits 32 32 v
    some (.sw off w)
  | _ => none

/-- `LW off` (R100). DESIGN CHOICE: the line has no place for the name of the value it reads (log entry 22). -/
def lwLine : List (List Char) → Option Line
  | [o] => (numberValue o).map .lw
  | _ => none

/-- The names a line can begin with, and how the rest of the line is read (R99 to R101). -/
def lineForms : List (String × (List (List Char) → Option Line)) :=
  [("CONFIGURE", configureLine), ("IS_READY", bareLine (.command .isReady)), ("READ_RAW", bareLine (.command .readRaw))] ++
  [("DECODE", immediateLine (.command .decode) .decodeImm), ("LOOKUP", immediateLine (.command .lookup) .lookupImm)] ++
  [("MEASURE", bareLine (.command .measure)), ("RW_HALF", twoByteLine 8 (fun a v => .command (.rwHalf a v)))] ++
  [("XFER", oneByteLine 8 (fun a => .command (.xfer a))), ("WRITE_REG", twoByteLine 7 (fun i v => .command (.writeReg i v)))] ++
  [("READ_REG", oneByteLine 7 (fun i => .command (.readReg i))), ("SOFT_RESET", bareLine (.command .softReset))] ++
  [("SW", swLine), ("LW", lwLine), ("WAIT", bareLine .wait), ("POLL_READY", bareLine .pollReady)] ++
  [("START_CONVERSION", startLine), ("read_write", twoByteLine 8 .readWrite), ("transfer", oneByteLine 8 .transfer)] ++
  [("write_register", twoByteLine 7 .writeRegister), ("read_register", oneByteLine 7 .readRegister), ("read", bareLine .read)]

/-- One line of a host program (R99 to R101). -/
def parseLine (text : String) : Option Line :=
  match tokensFrom [] text.toList with
  | [] => none
  | name :: rest =>
    match lineForms.find? (fun f => f.1.toList == name) with
    | some f => f.2 rest
    | none => none

end Sys2Proof.Machine
end

