-- ==== Sys2Proof/Tests/Slice0.lean ====
section
/-! SUPPORT. The model's own tests: WellFormed refuses ill-formed terms, words written out from the encodings decode as the spec
says, one command each on small states with the expected values of 95_test_vectors.md, and for every statement with hypotheses
a state and operands that meet them. -/

namespace Sys2Proof.Tests

open Sys2Proof Sys2Proof.Machine Sys2Proof.Certificates

/-! Fixtures. -/

/-- The reference instance with the two levels R7 leaves open set to a value, so that a whole run of it can be evaluated. -/
def quiet : Params := { Params.reference with mosiIdle := false, csTiming := ⟨0, 0, 0, 0⟩ }

/-- TDOC and TNEG of 95_test_vectors.md section 0. -/
def tdoc : List Sample := [⟨100#32, 0#32⟩, ⟨138#32, 10000#32⟩]
def tneg : List Sample := [⟨0#32, 100#32⟩, ⟨3#32, BitVec.ofInt 32 (-100)⟩]

/-- The state after reset. -/
def start : State := State.powerOn quiet

/-- `start` in another protocol state. -/
def inState (p : ProtoState) : State := start.setProto p

/-- `s` with the peripheral's answers laid down. -/
def answering (l : List OracleAnswer) (s : State) : State := { s with spiIn := l }

/-- `start` with one operation for the host to do now. -/
def hostTo (op : HostOp) : State := { start with turns := [.host], program := [op] }

/-- The state right after the issue of a command. -/
def issued (i : Instr) (s : State) : State := s.issue (encode i)

/-- The outcome is a next state with a property. -/
def goesTo (o : Outcome) (p : State → Bool) : Bool :=
  match o with
  | .next t => p t
  | .fault _ => false
  | .refused _ => false

/-- What a command run from its issue leaves: a few values in order. -/
def runs (w : Nat) (s : State) (p : State → Bool) : Bool := goesTo (commandRun (BitVec.ofNat 32 w) s) p

/-- The STATUS word as a number. -/
def statusOf (s : State) : Nat := s.status.word.toNat

/-! WellFormed refuses ill-formed terms. -/

theorem test_wf_write_index : (Instr.writeReg 0x80#8 0x00#8).wf = false := by decide
theorem test_wf_read_index : (Instr.readReg 0xFF#8).wf = false := by decide
theorem quiet_legal : quiet.legal = true := by decide

theorem test_legal_reference : Params.reference.legal = true := by decide
theorem test_legal_one_entry : { quiet with table := [⟨100#32, 0#32⟩] }.legal = false := by decide
theorem test_legal_equal_keys : { quiet with table := [⟨100#32, 0#32⟩, ⟨100#32, 1#32⟩] }.legal = false := by decide
theorem test_legal_keys_are_unsigned :
    { quiet with table := [⟨0x7FFFFFFF#32, 0#32⟩, ⟨0x80000000#32, 1#32⟩] }.legal = true := by decide
theorem test_legal_clock : { quiet with fSclk := 0 }.legal = false := by decide
theorem test_legal_base : { quiet with base := 32 }.legal = false := by decide

/-! Words written out bit by bit from R90, R92 and R94, one for every constructor, and the words of section 2.1. -/

theorem test_decode_configure : decodeWord 0b0001_000000000000_00000000_11001001#32 =
    .command (.configure ⟨true, true, false, .three, .hz50⟩) := by decide
theorem test_decode_configure_four : decodeWord 0b0001_000000000000_00000000_10110001#32 =
    .command (.configure ⟨true, false, true, .four, .hz50⟩) := by decide
theorem test_decode_configure_zero : decodeWord 0x10000000#32 =
    .command (.configure ⟨false, false, false, .two, .hz60⟩) := by decide
theorem test_decode_isReady : decodeWord 0b0010_000000000000_00000000_00000000#32 = .command .isReady := by decide
theorem test_decode_readRaw : decodeWord 0b0011_000000000000_00000000_00000000#32 = .command .readRaw := by decide
theorem test_decode_decode : decodeWord 0b0100_000000000000_00000000_00000000#32 = .command .decode := by decide
theorem test_decode_lookup : decodeWord 0b0101_000000000000_00000000_00000000#32 = .command .lookup := by decide
theorem test_decode_measure : decodeWord 0b0110_000000000000_00000000_00000000#32 = .command .measure := by decide
theorem test_decode_rwHalf : decodeWord 0b0111_000000000000_10000000_11000101#32 = .command (.rwHalf 0x80#8 0xC5#8) := by
  decide
theorem test_decode_xfer : decodeWord 0b1000_000000000000_11111111_00000000#32 = .command (.xfer 0xFF#8) := by decide
theorem test_decode_writeReg : decodeWord 0b1001_000000000000_01111111_11111111#32 = .command (.writeReg 0x7F#8 0xFF#8) := by
  decide
theorem test_decode_readReg : decodeWord 0b1010_000000000000_01111111_00000000#32 = .command (.readReg 0x7F#8) := by decide
theorem test_decode_softReset : decodeWord 0b1011_000000000000_00000000_00000000#32 = .command .softReset := by decide

/-- The illegal words of section 2.1, and READ_RAW with V != 0 (section 2.11). -/
theorem test_decode_illegal :
    ([0x00000000, 0xC0000000, 0xF0000000, 0x10010000, 0x10000019, 0x10000002, 0x10000100, 0x20000001, 0x40000100] ++
      [0x80000001, 0x90008000, 0xA0008000, 0xA0000001, 0x907F00FF, 0x30000001]).all
      (fun w => decodeTableWord 32 w == none) = true := by decide

/-- The eleven rows of spec/opcode_table.json at their match values. -/
theorem test_decode_table_rows :
    (opcodeRows.map (fun r => (decodeTableWord 32 r.value.toNat).map Instr.opc)) = opcodeRows.map (fun r => some r.opc) := by
  decide

/-! CONFIGURE and packing (section 2.4). -/

theorem test_pack_table :
    [pack quiet ⟨true, true, false, .three, .hz50⟩, pack quiet ⟨false, false, false, .two, .hz60⟩,
      pack quiet ⟨false, false, false, .four, .hz60⟩, pack quiet ⟨false, false, false, .three, .hz60⟩,
      pack quiet ⟨true, false, true, .four, .hz50⟩, pack quiet ⟨true, true, true, .two, .hz50⟩,
      pack { quiet with wire3Bit := true } ⟨true, true, false, .three, .hz50⟩,
      pack { quiet with wire3Bit := true, rsvd := 0#3 } ⟨true, true, false, .three, .hz50⟩]
    = [0xC5#8, 0x14#8, 0x14#8, 0x04#8, 0xB5#8, 0xF5#8, 0xD5#8, 0xD1#8] := by decide

/-- L1.2: the byte 0xC1 does not come back, the byte 0xF5 does. -/
theorem test_unpack : unpack quiet 0xC1#8 = ⟨true, true, false, .three, .hz50⟩ ∧ pack quiet (unpack quiet 0xC1#8) = 0xC5#8 ∧
    pack quiet (unpack quiet 0xF5#8) = 0xF5#8 ∧ (unpack quiet 0x14#8).wire = .four := by decide

theorem test_configure_ok : runs 0x100000C9 (answering [.done 0xAA#8 0xBB#8, .done 0xFF#8 0xC5#8] start) (fun t =>
    statusOf t == 0x2 && cfgWord t.cfgw t.cfgrb == 0x0000C5C5#32 &&
    t.hist == [⟨.write, [0x80#8, 0xC5#8], .bytes []⟩, ⟨.full, [0x00#8, 0x00#8], .bytes [0xFF#8, 0xC5#8]⟩]) = true := by decide

/-- The read-back differs in bit 5 only: VERIFY, unless the mask excludes the bit. -/
theorem test_configure_verify :
    (runs 0x100000B1 (answering [.done 0#8 0#8, .done 0x00#8 0x95#8] start) (fun t =>
      statusOf t == 0x58 && cfgWord t.cfgw t.cfgrb == 0x000095B5#32) &&
    runs 0x100000B1 (answering [.done 0#8 0#8, .done 0x00#8 0x95#8] (State.powerOn { quiet with verifyMask := 0xDD#8 })) (fun t =>
      statusOf t == 0x2 && cfgWord t.cfgw t.cfgrb == 0x000095B5#32)) = true := by decide

/-! IS_READY (section 2.5). -/

theorem test_isReady_sampled : runs 0x20000000 { inState .reading with rdyIn := [false, true] } (fun t =>
    statusOf t == 0x404 && t.rdyIn == [true]) = true := by decide

theorem test_isReady_no_line : runs 0x20000000 { State.powerOn { quiet with hasReadyLine := false } with rdyIn := [false] }
    (fun t => statusOf t == 0x38 && t.rdyIn == [false]) = true := by decide

/-! READ_RAW (section 2.6). -/

theorem test_readRaw_all_ones : runs 0x30000000 (answering [.done 0#8 0xFF#8, .done 0#8 0xFF#8] (inState .configured)) (fun t =>
    statusOf t == 0x104 && t.raw == 0xFFFF#16 && t.hist.map Event.tx == [[0x01#8, 0x00#8], [0x02#8, 0x00#8]]) = true := by decide

theorem test_readRaw_second_fails : runs 0x30000000 (answering [.done 0#8 0x3B#8, .ioFail] (inState .reading)) (fun t =>
    statusOf t == 0x4C && t.raw == 0#16 && t.hist.map Event.result == [.bytes [0#8, 0x3B#8], .ioFail]) = true := by decide

/-! DECODE (section 2.8). -/

theorem test_decoder_table :
    [decodedOhms 43234#32 0x0002#16, decodedOhms 43234#32 0x3B36#16, decodedOhms 43234#32 0x5204#16,
      decodedOhms 43234#32 0x8000#16, decodedOhms 43234#32 0xFFFE#16, decodedOhms 430000#32 0x3B36#16,
      decodedOhms 0xFFFFFFFF#32 0xFFFE#16] =
    [1#32, 9999#32, 13851#32, 21617#32, 43232#32, 99455#32, 4294836223#32] := by decide

/-- DECODE with ARG = 0xABCD0003: the upper half is ignored, FAULT is 1, RAW stays. -/
theorem test_decode_ignores_upper : runs 0x40000000 { start with arg := 0xABCD0003#32 } (fun t =>
    statusOf t == 0x100 && t.ohms == 1#32 && t.raw == 0#16) = true := by decide

/-! LOOKUP (section 2.9). -/

theorem test_lookup_table :
    [lookupTable tdoc 119, lookupTable tdoc 138, lookupTable tdoc 99, lookupTable tdoc 0xFFFFFFFF, lookupTable tdoc 137] =
      [(5000, false), (10000, false), (0, true), (10000, true), (9736, false)] ∧
    [lookupTable Config.tblEx 5000, lookupTable Config.tblEx 6026, lookupTable Config.tblEx 9999,
      lookupTable Config.tblEx 20000, lookupTable Config.tblEx 24709] =
      [(-12459, false), (-10000, false), (-3, false), (26670, false), (40000, false)] ∧
    [lookupTable tneg 1, lookupTable tneg 2, lookupTable tneg 3, lookupTable tneg 4] =
      [(34, false), (-33, false), (-100, false), (-100, true)] := by decide

/-- LOOKUP of 9999: -3 in two's complement. -/
theorem test_lookup_negative : runs 0x50000000 { start with arg := 9999#32 } (fun t =>
    statusOf t == 0x0 && t.temp == 0xFFFFFFFD#32) = true := by decide

/-! MEASURE (section 2.10). -/

theorem test_measure_fault_and_clamp :
    runs 0x60000000 (answering [.done 0x55#8 0x00#8, .done 0x66#8 0x01#8] { inState .configured with arg := 7#32 }) (fun t =>
      statusOf t == 0x304 && t.raw == 0x0001#16 && t.ohms == 0#32 && t.temp == 0xFFFFB1E0#32 && t.arg == 7#32) = true := by
  decide

theorem test_measure_unconfigured : runs 0x60000000 start (fun t => statusOf t == 0x28 && t.hist == []) = true := by decide

/-! The raw register commands (section 2.3). -/

theorem test_rwHalf : runs 0x700080C5 (answering [.done 0x12#8 0x34#8] start) (fun t =>
    statusOf t == 0 && t.rxd == 0x34#8 && t.cfgw == 0#8 &&
    t.hist == [⟨.half, [0x80#8, 0xC5#8], .bytes [0x12#8, 0x34#8]⟩]) = true := by decide

theorem test_rwHalf_fails : runs 0x700001AB (answering [.ioFail] { start with rxd := 9#8 }) (fun t =>
    statusOf t == 0x48 && t.rxd == 9#8 && t.hist == [⟨.half, [0x01#8, 0xAB#8], .ioFail⟩]) = true := by decide

/-- R71, R116: XFER 0x01 answered 0xFF, 0x3B: what MOSI and MISO are at the rising edges of SCLK. -/
theorem test_wire_bits :
    ((transactionLevels quiet 0 .full [0x01#8, 0x00#8] ⟨0xFF#8, 0x3B#8⟩).filter (fun l => l.sclk && !l.cs)).tail.map
      (fun l => (l.mosi, l.miso)) =
    ([false, false, false, false, false, false, false, true] ++ [false, false, false, false, false, false, false, false]).zip
      ([true, true, true, true, true, true, true, true] ++ [false, false, true, true, true, false, true, true]) := by decide

/-- R112: a HALF broken off in its write phase has none of the read phase's cycles, wherever it breaks off there. -/
theorem test_write_phase_fails :
    [0, 7, 31, 32, 33].all (fun n =>
      (brokenOff quiet 0 .writing n (transactionLevels quiet 0 .half [0x01#8, 0xAB#8] ⟨0#8, 0#8⟩)).length ≤ 34) = true := by decide

theorem test_xfer : runs 0x80008100 (answering [.done 0x12#8 0x34#8] start) (fun t =>
    t.rxd == 0x34#8 && t.hist == [⟨.full, [0x81#8, 0x00#8], .bytes [0x12#8, 0x34#8]⟩]) = true := by decide

/-- XFER 0x02 with HANG: BUSY 1, CS 0, no event, no commit. -/
theorem test_xfer_hangs : runs 0x80000200 (answering [.hang] start) (fun t =>
    statusOf t == 0x1 && !t.cs && t.hist == [] && t.xf == some ⟨.full, [0x02#8, 0x00#8], .exchange⟩) = true := by decide

theorem test_writeReg : runs 0x90007FFF (answering [.done 0xEE#8 0xEE#8] { start with rxd := 9#8 }) (fun t =>
    statusOf t == 0 && t.rxd == 9#8 && t.hist == [⟨.write, [0xFF#8, 0xFF#8], .bytes []⟩]) = true := by decide

theorem test_writeReg_fails : runs 0x90000310 (answering [.ioFail] start) (fun t =>
    statusOf t == 0x48 && t.hist == [⟨.write, [0x83#8, 0x10#8], .ioFail⟩]) = true := by decide

theorem test_readReg : runs 0xA0000200 (answering [.done 0x00#8 0x37#8] start) (fun t =>
    statusOf t == 0 && t.rxd == 0x37#8 && t.raw == 0#16 &&
    t.hist == [⟨.full, [0x02#8, 0x00#8], .bytes [0x00#8, 0x37#8]⟩]) = true := by decide

/-! SOFT_RESET (section 2.7). -/

theorem test_softReset : runs 0xB0000000
    { start with arg := 5#32, raw := 0x3B36#16, temp := 0xFFFFFFFD#32, cfgw := 0xC5#8, cfgrb := 0xC5#8,
                 status := { Status.reset with state := .reading, sticky := true, err := .state, ready := true } } (fun t =>
    statusOf t == 0 && t.raw == 0#16 && t.temp == 0#32 && t.cfgw == 0#8 && t.cfgrb == 0#8 && t.cmd == 0xB0000000#32 &&
    t.arg == 5#32 && t.hist == []) = true := by decide

theorem test_softReset_illegal : runs 0xB0000001 { inState .reading with raw := 3#16 } (fun t =>
    statusOf t == 0x1C && t.raw == 3#16) = true := by decide

/-- Section 2.11: OK keeps STICKY. -/
theorem test_sticky_kept : runs 0x40000000 { start with status := { Status.reset with sticky := true, err := .state }, arg := 2#32 }
    (fun t => statusOf t == 0x8) = true := by decide

/-! The window (section 2.2) and reset (section 2.12). -/

/-- The answer to one host operation. -/
def answerTo (op : HostOp) (s : State) : Option Answer :=
  match step { s with turns := [.host], program := [op] } with
  | .next t => t.answers.getLast?
  | .fault _ => none
  | .refused _ => none

theorem test_window :
    [answerTo (.read 0x08 4) start, answerTo (.read 0x20 4) start, answerTo (.read 0x24 4) start, answerTo (.write 0x04 4 7#32) start,
      answerTo (.write 0x08 4 0#32) start, answerTo (.write 0x20 4 1#32) start, answerTo (.read 0x28 4) start,
      answerTo (.read 0x3C 4) start, answerTo (.read 0x02 4) start, answerTo (.read 0x08 2) start] =
    [some (.data 0#32), some (.data 0x0000A8E2#32), some (.data 0x0007FF11#32), some .ok,
      some .busErr, some .busErr, some .busErr, some .busErr, some .busErr, some .busErr] := by decide

/-- RST asserted: a window read is a bus error. -/
theorem test_window_in_reset : answerTo (.read 0x08 4) { start with rst := true } = some .busErr := by decide

/-- The hung WRITE_REG of P6, with a CMD write held behind it. -/
def hung : State :=
  { start with
    cmd := 0x900000C5#32
    opl := { Opl.reset with w := 0x900000C5#32 }
    status := { Status.reset with busy := true }
    phase := .exec 0x9#4 0
    xf := some ⟨.write, [0x80#8, 0xC5#8], .writing⟩
    cs := false
    held := some 0x20000000#32
    turns := [.rst true] }

/-- P6, step 5: reset ends the hang, and the held write gets BUSERR. -/
theorem test_reset_ends_hang : goesTo (step hung) (fun t =>
    statusOf t == 0 && t.cs && t.xf == none && t.held == none && t.cmd == 0#32 && t.answers == [.busErr] && t.hist == []) = true := by
  decide

/-! withFetchWord, and the program text (R99 to R101). -/

theorem test_fetch_runs : goesTo (step (State.reset.withFetchWord 32 0x50000000)) (fun t =>
    t.phase == .idle && t.temp == BitVec.ofInt 32 (-20000) && t.status.oor) = true := by decide

theorem test_parse :
    parseLine "CONFIGURE vbias=1, cmode=1, oneshot=0, wire=3, filter=50" =
      some (.command (.configure ⟨true, true, false, .three, .hz50⟩)) ∧
    parseLine "RW_HALF   0x80, 197" = some (.command (.rwHalf 0x80#8 0xC5#8)) ∧
    parseLine "WRITE_REG 0x80, 0" = none ∧
    parseLine "LOOKUP #119" = some (.lookupImm 119#32) := by decide

/-- The expansions of section 2.1. -/
theorem test_expand :
    expandProgram quiet [.decodeImm 0xFFFE#32, .startConversion true .four .hz50, .read, .readRegister 0x01#8] =
      [.write 0x04 4 0x0000FFFE#32, .write 0x00 4 0x40000000#32, .write 0x00 4 0x100000B1#32, .write 0x00 4 0x60000000#32,
        .write 0x00 4 0xA0000100#32] := by decide

/-! Witnesses: for every statement with hypotheses, a state and operands that meet them. -/

theorem witness_DecodeOfEncode : (Instr.writeReg 0x7F#8 0xFF#8).wf = true := by decide

theorem witness_EncodeOfDecode : decodeWord 0x90007FFF#32 = .command (.writeReg 0x7F#8 0xFF#8) := by decide

theorem witness_DecodeMatchesOpcodeRows :
    (⟨0xA#4, 0xA0000000#32, 0xFFFF80FF#32⟩ : OpcodeRow) ∈ opcodeRows ∧
    (⟨0xA#4, 0xA0000000#32, 0xFFFF80FF#32⟩ : OpcodeRow).hits 0xA0007F00#32 = true ∧
    decodeWord 0xA0007F00#32 = .command (.readReg 0x7F#8) := by decide

theorem witness_IllegalWordsEndIllegal :
    decodeWord 0xC0000000#32 = .illegal .opcode ∧ start.rst = false ∧ start.xf = none := by decide

theorem witness_ConfigureFieldsFromWord :
    decodeWord 0x100000B1#32 = .command (.configure ⟨true, false, true, .four, .hz50⟩) := by decide

theorem start_inv : start.Inv where
  legal := by decide
  busy := by decide
  cs := by decide
  flight := by decide
  idleBus := by decide
  running := .inl rfl
  step := by decide
  guarded := by decide
  reset := fun h => absurd h (by decide)

theorem hung_inv : hung.Inv where
  legal := by decide
  busy := by decide
  cs := by decide
  flight := by decide
  idleBus := by decide
  running := .inr (by decide)
  step := by decide
  guarded := by decide
  reset := fun h => absurd h (by decide)

theorem witness_ResetFromAnyState :
    hung.params.legal = true ∧ hung.turns = [.rst true] ∧ hung.Inv ∧ hung.xf ≠ none ∧
    goesTo (step hung) (fun t => t.xf == none) = true := ⟨by decide, rfl, hung_inv, by decide, by decide⟩

/-- The block in reset, the host or the release of RST to come. -/
def inReset (turn : Turn) : State :=
  { start with rst := true, turns := [turn], program := [.read 0x3F 1, .write 0x00 4 0x20000000#32] }

theorem witness_WindowInReset :
    (∀ turn, (inReset turn).Inv) ∧ (∀ turn, (inReset turn).rst = true) ∧
    (inReset .host).turns = [.host] ∧ (inReset (.rst false)).turns = [.rst false] ∧
    quiet.base ≤ 0x3F ∧ 0x3F < quiet.base + 64 ∧
    (∀ op ∈ [HostOp.wait, .pollReady, .pollCheck],
      { inReset .host with program := [op] }.program = [op] ∧ { inReset .host with program := [op] }.held = none) := by
  refine ⟨fun turn => ?_, fun _ => rfl, rfl, rfl, by decide, by decide, by decide⟩
  exact ⟨quiet_legal, by simp [inReset, start, State.powerOn, Status.reset], by simp [inReset, start, State.powerOn],
    by simp [inReset, start, State.powerOn], fun _ => ⟨rfl, rfl⟩, .inl rfl, Nat.zero_le _, fun _ _ => rfl,
    fun _ => ⟨⟨rfl, rfl, rfl, rfl, rfl, rfl, rfl, rfl⟩, rfl, rfl, ⟨rfl, rfl, rfl, rfl⟩, rfl⟩⟩

/-- A command issued and not yet begun, its turn to come or none laid down. -/
def running (i : Instr) (l : List OracleAnswer) : State := issued i (answering l (inState .configured))

theorem witness_StepRunsRunningCommand :
    (running .measure []).params.legal = true ∧ (running .measure []).rst = false ∧ (running .measure []).phase ≠ .idle ∧
    (running .measure []).xf = none ∧ decodeWord (running .measure []).opl.w = .command .measure ∧
    (running .measure []).turns = [] ∧ { running .measure [] with turns := [.ctrl] }.turns = [.ctrl] := by decide

theorem witness_FetchWordRunsNext : start.params.legal = true ∧ decodeTableWord 32 0xB0000000 = some .softReset := by decide

theorem witness_IllegalInstanceRefused : { start with params := { quiet with base := 4 } }.params.legal = false := by decide

theorem witness_SafeStepsGoOn : (hostTo (.read 0x3F 4)).Safe :=
  ⟨by decide, by intro op h; simp [hostTo] at h; subst h; exact ⟨by decide, by decide⟩⟩

/-- The first address above the window, and the last below a window that does not begin at 0. -/
theorem witness_OutsideWindowFaults :
    (hostTo (.read 64 4)).params.legal = true ∧ (hostTo (.read 64 4)).held = none ∧ quiet.base + 64 ≤ 64 ∧
    ({ quiet with base := 64 } : Params).legal = true ∧ 63 < ({ quiet with base := 64 } : Params).base := by decide

theorem witness_StepKeepsInvariant : start.Inv ∧ goesTo (step start) (fun t => t == start) = true := ⟨start_inv, by decide⟩

theorem witness_PowerOnInvariant : quiet.legal = true := by decide

/-- `start` with one operation for the host meets the invariant. -/
theorem hostTo_inv (op : HostOp) : (hostTo op).Inv :=
  ⟨quiet_legal, by simp [hostTo, start, State.powerOn, Status.reset], by simp [hostTo, start, State.powerOn],
    by simp [hostTo, start, State.powerOn], fun _ => ⟨rfl, rfl⟩, .inl rfl, Nat.zero_le _, fun _ _ => rfl,
    fun h => by cases h⟩

theorem witness_ResultsVisibleOnlyAtCommit :
    (hostTo (.write 0x00 4 0x20000000#32)).Inv ∧
    goesTo (step (hostTo (.write 0x00 4 0x20000000#32))) (fun t => t.phase != .idle) = true := ⟨hostTo_inv _, by decide⟩

/-- A transaction that completes with no turn laid down, and one that fails with the controller's laid down. -/
theorem witness_HistoryGrowsByTransactions :
    goesTo (step (running (.xfer 0x01#8) [.done 1#8 2#8])) (fun t => t.hist.length == 1) = true ∧
    goesTo (step { running (.writeReg 0x01#8 0x02#8) [.ioFail] with turns := [.ctrl] }) (fun t => t.hist.length == 1) = true := by
  decide

theorem witness_StickyRecordsErrors :
    goesTo (step { running .softReset [] with status := { Status.reset with busy := true, sticky := true } })
      (fun t => !t.status.sticky) = true ∧
    goesTo (step (issued .measure start)) (fun t => t.phase == .idle && t.status.err != .ok && !t.rst) = true := by decide

/-- CONFIGURE at its commit, both transactions done. -/
def configuring : State :=
  { issued (.configure ⟨true, true, false, .three, .hz50⟩) start with
    phase := .exec 0x1#4 2
    opl := { (issued (.configure ⟨true, true, false, .three, .hz50⟩) start).opl with rx2 := ⟨0x00#8, 0xC5#8⟩ } }

theorem witness_ConfigureOnlyWayOut : configuring.Inv ∧ configuring.status.state = .unconfigured ∧
    goesTo (step configuring) (fun t => t.status.state == .configured && t.status.err == .ok && !t.rst) = true := by
  refine ⟨⟨by decide, by decide, by decide, by decide, by decide, .inr (by decide), by decide, by decide, ?_⟩, by decide, by decide⟩
  exact fun h => absurd h (by decide)

theorem witness_InstanceNeverChanges : goesTo (step start) (fun _ => true) = true := by decide

theorem witness_HangLastsUntilReset :
    (answering [.hang] start).spiAnswer .half [0x01#8, 0xAB#8] = .hang ∧ hung.Inv ∧ hung.xf ≠ none ∧
    goesTo (step { hung with turns := [.ctrl] }) (fun _ => true) = true := ⟨rfl, hung_inv, by decide, by decide⟩

theorem running_inv (l : List OracleAnswer) : (running .readRaw l).Inv :=
  ⟨quiet_legal, by simp [running, issued, State.issue], by simp [running, issued, State.issue, answering, inState, State.setProto,
    start, State.powerOn], by simp [running, issued, State.issue], fun _ => ⟨rfl, rfl⟩, .inr ⟨rfl, rfl⟩, Nat.zero_le _,
    fun _ _ => rfl, fun h => by cases h⟩

theorem witness_RunningCommandLatched :
    (running .readRaw [.done 0#8 0x3B#8]).Inv ∧ (running .readRaw [.done 0#8 0x3B#8]).phase ≠ .idle ∧
    goesTo (step (running .readRaw [.done 0#8 0x3B#8])) (fun t => t.phase == .exec 0x3#4 1) = true ∧
    goesTo (exec .decode start) (fun _ => true) = true := ⟨running_inv _, by decide, by decide, by decide⟩

theorem witness_InfoWordFields : start.params.legal = true ∧ goesTo (step start) (fun _ => true) = true := by decide

/-- Each of the ten offsets. -/
theorem witness_RegisterReadsChangeNothing :
    start.params.legal = true ∧ start.rst = false ∧ start.held = none ∧
    ∀ off ∈ [0x00, 0x04, 0x08, 0x0C, 0x10, 0x14, 0x18, 0x1C, 0x20, 0x24],
      (hostTo (.read (quiet.base + off) 4)).turns = [.host] ∧
      goesTo (step (hostTo (.read (quiet.base + off) 4))) (fun t => t.answers != [.busErr]) = true := by decide

/-- A wrong width, a misaligned offset, the first reserved offset, the last byte of the window; writes to the first and the last
read-only register. -/
theorem witness_WindowBusErrors :
    start.params.legal = true ∧ start.held = none ∧
    (∀ p ∈ [(0x00, 2), (0x02, 4), (0x28, 4), (0x3F, 4)], p.1 < 64 ∧ (p.2 ≠ 4 ∨ p.1 % 4 ≠ 0 ∨ 0x28 ≤ p.1)) ∧
    (∀ p ∈ [(0x00, 1), (0x05, 4), (0x08, 4), (0x24, 4)], p.1 < 64 ∧ (p.2 ≠ 4 ∨ p.1 % 4 ≠ 0 ∨ 0x08 ≤ p.1)) := by decide

theorem witness_CmdWriteIssues :
    (hostTo (.write quiet.base 4 0xB0000000#32)).Inv ∧ (hostTo (.write quiet.base 4 0xB0000000#32)).rst = false ∧
    (hostTo (.write quiet.base 4 0xB0000000#32)).held = none ∧ (hostTo (.write quiet.base 4 0xB0000000#32)).phase = .idle :=
  ⟨hostTo_inv _, rfl, rfl, rfl⟩

/-- A host with a write held, and one with an operation to do, while a command runs and after. -/
def waiting (busy : Bool) (held : Option Word) (op : HostOp) : State :=
  { start with status := { Status.reset with busy := busy }, held := held, turns := [.host], program := [op] }

theorem witness_CmdWriteHeldWhileBusy :
    quiet.legal = true ∧ (waiting true none (.write 0 4 1#32)).rst = false ∧
    ((waiting true none (.write 0 4 1#32)).held = none ∧ (waiting true none (.write 0 4 1#32)).status.busy = true) ∧
    ((waiting true (some 1#32) .wait).held = some 1#32 ∧ (waiting true (some 1#32) .wait).status.busy = true) ∧
    ((waiting false (some 1#32) .wait).held = some 1#32 ∧ (waiting false (some 1#32) .wait).status.busy = false) ∧
    (waiting true none (.write (quiet.base + 4) 4 1#32)).status.busy = true ∧
    (waiting true none (.read (quiet.base + Reg.info.offset) 4)).status.busy = true := by decide

theorem witness_ArgWriteStores :
    (hostTo (.write (quiet.base + 4) 4 0xDEADBEEF#32)).params.legal = true ∧
    (hostTo (.write (quiet.base + 4) 4 0xDEADBEEF#32)).held = none ∧
    (hostTo (.write (quiet.base + 4) 4 0xDEADBEEF#32)).program = [.write (quiet.base + 4) 4 0xDEADBEEF#32] := by decide

theorem witness_HostLoopsRepeat :
    (waiting true none .wait).program = [.wait] ∧ (waiting false none .pollReady).program = [.pollReady] ∧
    (waiting false none .pollReady).status.busy = false ∧ (waiting true none .pollReady).program = [.pollReady] ∧
    (waiting true none .pollReady).status.busy = true ∧ (waiting true none .pollReady).rst = false ∧
    (waiting true none .pollReady).turns = [.host] ∧ (waiting false none .pollCheck).program = [.pollCheck] ∧
    (waiting false none .pollCheck).params.legal = true ∧ (waiting false none .pollCheck).held = none := by decide

theorem witness_TransactionOutcomes :
    (running (.xfer 1#8) []).phase = .exec 0x8#4 0 ∧
    (running (.xfer 1#8) [.done 1#8 2#8]).spiAnswer .full [1#8, 0#8] = .done 1#8 2#8 ∧
    (running (.xfer 1#8) [.ioFail]).spiAnswer .full [1#8, 0#8] = .ioFail := by decide

/-- An issued command is JustIssued, whatever the answers to come. -/
theorem running_justIssued (i : Instr) (l : List OracleAnswer) (h : opcOf (encode i) = i.opc) : (running i l).JustIssued i :=
  ⟨by simp [running, issued, State.issue, h], rfl⟩

theorem witness_RwHalfResult :
    (running (.rwHalf 0xFF#8 0#8) [.done 1#8 2#8]).JustIssued (.rwHalf 0xFF#8 0#8) ∧
    (running (.rwHalf 0xFF#8 0#8) [.done 1#8 2#8]).spiAnswer .half [0xFF#8, 0#8] = .done 1#8 2#8 ∧
    (running (.rwHalf 0xFF#8 0#8) [.ioFail]).spiAnswer .half [0xFF#8, 0#8] = .ioFail :=
  ⟨running_justIssued _ _ (by decide), rfl, rfl⟩

theorem witness_FullReadsResult :
    (running (.xfer 0xFF#8) [.done 1#8 2#8]).JustIssued (.xfer 0xFF#8) ∧
    (running (.readReg 0x7F#8) [.ioFail]).JustIssued (.readReg 0x7F#8) ∧
    (running (.xfer 0xFF#8) [.done 1#8 2#8]).spiAnswer .full [0xFF#8, 0x00#8] = .done 1#8 2#8 ∧
    (running (.readReg 0x7F#8) [.ioFail]).spiAnswer .full [0x7F#8, 0x00#8] = .ioFail :=
  ⟨running_justIssued _ _ (by decide), running_justIssued _ _ (by decide), rfl, rfl⟩

theorem witness_WriteRegHasNoResult :
    (running (.writeReg 0x7F#8 0#8) [.done 1#8 2#8]).JustIssued (.writeReg 0x7F#8 0#8) ∧
    (running (.writeReg 0x7F#8 0#8) [.done 1#8 2#8]).spiAnswer .write [0x80#8 ||| 0x7F#8, 0#8] = .done 1#8 2#8 ∧
    (running (.writeReg 0x7F#8 0#8) [.ioFail]).spiAnswer .write [0x80#8 ||| 0x7F#8, 0#8] = .ioFail :=
  ⟨running_justIssued _ _ (by decide), rfl, rfl⟩

/-- The source's configuration (R152). -/
def vector : Cfg := ⟨true, true, false, .three, .hz50⟩

theorem witness_ConfigureSucceeds :
    (running (.configure vector) [.done 0#8 0#8, .done 0#8 0xC5#8]).JustIssued (.configure vector) ∧
    (running (.configure vector) [.done 0#8 0#8, .done 0#8 0xC5#8]).spiAnswer .write [0x80#8, 0xC5#8] = .done 0#8 0#8 ∧
    (afterBus (running (.configure vector) [.done 0#8 0#8, .done 0#8 0xC5#8]) [⟨.write, [0x80#8, 0xC5#8], .bytes []⟩]).spiAnswer
      .full [0#8, 0#8] = .done 0#8 0xC5#8 ∧
    pack quiet vector = 0xC5#8 ∧ 0xC5#8 &&& quiet.verifyMask = pack quiet vector &&& quiet.verifyMask :=
  ⟨running_justIssued _ _ (by decide), rfl, rfl, by decide, by decide⟩

theorem witness_ConfigureFails :
    (running (.configure vector) [.ioFail]).JustIssued (.configure vector) ∧
    (running (.configure vector) [.ioFail]).spiAnswer .write [0x80#8, 0xC5#8] = .ioFail ∧
    (afterBus (running (.configure vector) [.done 0#8 0#8, .ioFail]) [⟨.write, [0x80#8, 0xC5#8], .bytes []⟩]).spiAnswer
      .full [0#8, 0#8] = .ioFail ∧
    (afterBus (running (.configure vector) [.done 0#8 0#8, .done 0#8 0xC4#8]) [⟨.write, [0x80#8, 0xC5#8], .bytes []⟩]).spiAnswer
      .full [0#8, 0#8] = .done 0#8 0xC4#8 ∧
    0xC4#8 &&& quiet.verifyMask ≠ pack quiet vector &&& quiet.verifyMask :=
  ⟨running_justIssued _ _ (by decide), rfl, rfl, rfl, by decide⟩

theorem witness_IsReadySamples :
    start.params.hasReadyLine = true ∧ (State.powerOn { quiet with hasReadyLine := false }).params.hasReadyLine = false := by decide

theorem witness_ReadRawSucceeds :
    (running .readRaw [.done 0#8 0x3B#8, .done 0#8 0x36#8]).JustIssued .readRaw ∧
    (running .readRaw [.done 0#8 0x3B#8, .done 0#8 0x36#8]).status.state ≠ .unconfigured ∧
    (running .readRaw [.done 0#8 0x3B#8, .done 0#8 0x36#8]).spiAnswer .full [1#8, 0#8] = .done 0#8 0x3B#8 ∧
    (afterBus (running .readRaw [.done 0#8 0x3B#8, .done 0#8 0x36#8]) [⟨.full, [1#8, 0#8], .bytes [0#8, 0x3B#8]⟩]).spiAnswer
      .full [2#8, 0#8] = .done 0#8 0x36#8 :=
  ⟨running_justIssued _ _ (by decide), by decide, rfl, rfl⟩

theorem witness_ReadRawErrors :
    (issued .readRaw start).JustIssued .readRaw ∧ (issued .readRaw start).status.state = .unconfigured ∧
    (running .readRaw [.ioFail]).JustIssued .readRaw ∧ (running .readRaw [.ioFail]).status.state ≠ .unconfigured ∧
    (running .readRaw [.ioFail]).spiAnswer .full [1#8, 0#8] = .ioFail ∧
    (running .readRaw [.done 0#8 0x3B#8, .ioFail]).spiAnswer .full [1#8, 0#8] = .done 0#8 0x3B#8 ∧
    (afterBus (running .readRaw [.done 0#8 0x3B#8, .ioFail]) [⟨.full, [1#8, 0#8], .bytes [0#8, 0x3B#8]⟩]).spiAnswer
      .full [2#8, 0#8] = .ioFail :=
  ⟨⟨rfl, rfl⟩, rfl, running_justIssued _ _ (by decide), by decide, rfl, rfl, rfl⟩

theorem witness_MeasureSucceeds :
    (running .measure [.done 0#8 0x3B#8, .done 0#8 0x36#8]).JustIssued .measure ∧
    (running .measure [.done 0#8 0x3B#8, .done 0#8 0x36#8]).status.state ≠ .unconfigured ∧
    (running .measure [.done 0#8 0x3B#8, .done 0#8 0x36#8]).spiAnswer .full [1#8, 0#8] = .done 0#8 0x3B#8 ∧
    (afterBus (running .measure [.done 0#8 0x3B#8, .done 0#8 0x36#8]) [⟨.full, [1#8, 0#8], .bytes [0#8, 0x3B#8]⟩]).spiAnswer
      .full [2#8, 0#8] = .done 0#8 0x36#8 ∧
    9999#32 = BitVec.ofNat 32 (((0x3B#8).toNat * 256 + (0x36#8).toNat) / 2 * quiet.cal.toNat / 32768) :=
  ⟨running_justIssued _ _ (by decide), by decide, rfl, rfl, by decide⟩

theorem witness_MeasureErrors :
    (issued .measure start).JustIssued .measure ∧ (issued .measure start).status.state = .unconfigured ∧
    (running .measure [.ioFail]).JustIssued .measure ∧ (running .measure [.ioFail]).status.state ≠ .unconfigured ∧
    (running .measure [.ioFail]).spiAnswer .full [1#8, 0#8] = .ioFail ∧
    (running .measure [.done 0#8 0x3B#8, .ioFail]).spiAnswer .full [1#8, 0#8] = .done 0#8 0x3B#8 ∧
    (afterBus (running .measure [.done 0#8 0x3B#8, .ioFail]) [⟨.full, [1#8, 0#8], .bytes [0#8, 0x3B#8]⟩]).spiAnswer
      .full [2#8, 0#8] = .ioFail :=
  ⟨⟨rfl, rfl⟩, rfl, running_justIssued _ _ (by decide), by decide, rfl, rfl, rfl⟩

theorem witness_DecoderProperties :
    (0x3B36#16).toNat / 2 ≤ (0x3B38#16).toNat / 2 ∧ 0 < (1#32).toNat ∧ (0x3B36#16).toNat / 2 = (0x3B37#16).toNat / 2 := by decide

/-- TDOC: one below the first key, the first and the last key, one above. -/
theorem witness_LookupUsesBracket :
    2 ≤ tdoc.length ∧ tableIncreasing tdoc = true ∧ tdoc.head? = some ⟨100#32, 0#32⟩ ∧ tdoc.getLast? = some ⟨138#32, 10000#32⟩ ∧
    99 < (100#32).toNat ∧ (138#32).toNat < 139 ∧ ((100#32).toNat ≤ 100 ∧ 100 ≤ (138#32).toNat) ∧
    ((100#32).toNat ≤ 138 ∧ 138 ≤ (138#32).toNat) := by decide

theorem witness_LookupNeverOverflows :
    { quiet with table := tneg }.legal = true ∧ tneg[0]? = some ⟨0#32, 100#32⟩ ∧
    tneg[0 + 1]? = some ⟨3#32, BitVec.ofInt 32 (-100)⟩ ∧ (0#32).toNat ≤ (2#32).toNat ∧ (2#32).toNat ≤ (3#32).toNat ∧
    lookupOor { quiet with table := tneg } 4#32 = true := by decide

theorem witness_LookupClamps :
    start.params.legal = true ∧ start.params.table.head? = some ⟨1852#32, BitVec.ofInt 32 (-20000)⟩ ∧
    start.params.table.getLast? = some ⟨24709#32, 40000#32⟩ ∧
    { start with opl := { Opl.reset with arg := 1851#32 } }.opl.arg.toNat < (1852#32).toNat ∧
    (24709#32).toNat < { start with opl := { Opl.reset with arg := 24710#32 } }.opl.arg.toNat := by decide

theorem witness_BracketChoiceImmaterial :
    tableIncreasing tdoc = true ∧ tdoc[0]? = some ⟨100#32, 0#32⟩ ∧ tdoc[0 + 1]? = some ⟨138#32, 10000#32⟩ ∧
    ((100#32).toNat ≤ 100 ∧ 100 ≤ (138#32).toNat) ∧ ((100#32).toNat ≤ 138 ∧ 138 ≤ (138#32).toNat) := by decide

theorem witness_PackRoundTrips :
    vector.wire ≠ .two ∧ (⟨false, false, false, .two, .hz60⟩ : Cfg).wire = .two ∧
    (0x14#8).extractLsb' 1 3 = quiet.rsvd ∧ (0xC1#8).extractLsb' 1 3 ≠ quiet.rsvd := by decide

theorem witness_MeasureEqualsThreeCommands :
    (answering [.done 0#8 0x3B#8, .done 0#8 0x36#8] (inState .configured)).rst = false ∧
    (answering [.done 0#8 0x3B#8, .done 0#8 0x36#8] (inState .configured)).xf = none ∧
    runs 0x60000000 (answering [.done 0#8 0x3B#8, .done 0#8 0x36#8] (inState .configured)) (fun t =>
      t.phase == .idle && t.status.err == .ok) = true := by decide

/-- An illegal word at its end, and a CONFIGURE that is not verified. -/
theorem witness_ErroringCommandChanges :
    goesTo (step (start.issue 0xC0000000#32)) (fun t => t.phase == .idle && !t.rst && t.status.err == .illegal) = true ∧
    goesTo (step { configuring with opl := { configuring.opl with rx2 := ⟨0#8, 0xC4#8⟩ } }) (fun t =>
      t.phase == .idle && !t.rst && t.status.err == .verify) = true := by decide

/-- A command that ends OK, and one that hangs. -/
theorem witness_CommandEndsOrHangs :
    start.rst = false ∧ start.xf = none ∧
    runs 0x80000100 (answering [.done 1#8 2#8] start) (fun t => t.phase == .idle && t.status.err == .ok) = true ∧
    runs 0x80000100 (answering [.hang] start) (fun t => t.phase != .idle) = true := by decide

/-- One word for each row of the table. -/
theorem witness_ProtocolTransitions :
    [0x100000C9, 0xB0000000, 0x30000000, 0x60000000, 0xC0000000, 0x20000000, 0x40000000, 0x50000000, 0x70000000, 0x80000000,
      0x90000000, 0xA0000000].all (fun w =>
        runs w { answering [.done 0#8 0xC5#8, .done 0#8 0xC5#8] (inState .configured) with rdyIn := [true] } (fun t =>
          t.phase == .idle)) = true := by decide

theorem witness_RawCommandsKeepProtocol :
    goesTo (exec (.writeReg 0x00#8 0xC5#8) (running (.writeReg 0x00#8 0xC5#8) [.done 0#8 0#8])) (fun _ => true) = true := by decide

/-- A HALF transaction's wire: the first and the last bit of a byte, and of the read phase. -/
theorem witness_WireBracket :
    (∃ wire, wire = transactionLevels quiet 0 .half [0x80#8, 0xC5#8] ⟨0x12#8, 0x34#8⟩) ∧ 0 < 16 ∧ 7 < 16 ∧ 8 < 16 ∧ 15 < 16 ∧
    TxKind.half = .half ∧ TxKind.half ≠ .write := ⟨⟨_, rfl⟩, by decide⟩

end Sys2Proof.Tests
end

section
/-! The phase, the controller's readiness and the turns of a controller that has no step to take. -/

namespace Sys2Proof.Machine

open Sys2Proof

@[simp] theorem Phase.advance_eq_idle (p : Phase) : p.advance = .idle ↔ p = .idle := by
  cases p <;> simp [Phase.advance]

/-- A completed transaction of a running command is counted in PHASE (R21). -/
theorem Phase.step_advance {p : Phase} (h : p ≠ .idle) : p.advance.step = p.step + 1 := by
  cases p with
  | idle => exact absurd rfl h
  | exec op n => rfl

theorem State.controllerReady_iff (s : State) :
    s.controllerReady = true ↔ s.rst = false ∧ s.phase ≠ .idle ∧ s.xf = none := by
  simp [State.controllerReady, and_assoc]

/-- A controller that is not ready lets its turns pass. -/
theorem controllerTurns_of_not_ready {s : State} (h : s.controllerReady = false) :
    ∀ k, controllerTurns k s = .next s
  | 0 => rfl
  | k + 1 => by simp [controllerTurns, controllerTurn, h, controllerTurns_of_not_ready h k]

/-- A ready controller's first turn is the latched command's step. -/
theorem controllerTurns_succ_of_command {s t : State} {i : Instr} (hr : s.controllerReady = true)
    (hd : decodeWord s.opl.w = .command i) (he : exec i s = .next t) (k : Nat) :
    controllerTurns (k + 1) s = controllerTurns k t := by
  simp [controllerTurns, controllerTurn, runCommand, hr, hd, he]

/-- A ready controller's first turn ends an illegal word's command (R96). -/
theorem controllerTurns_succ_of_illegal {s : State} {why : Illegal} (hr : s.controllerReady = true)
    (hd : decodeWord s.opl.w = .illegal why) (k : Nat) :
    controllerTurns (k + 1) s = controllerTurns k (s.finish .illegal) := by
  simp [controllerTurns, controllerTurn, runCommand, hr, hd]

/-- A command is ready to run once issued, out of reset with the bus free (R79). -/
theorem controllerReady_issue {s : State} (w : Word) (hr : s.rst = false) (hx : s.xf = none) :
    (s.issue w).controllerReady = true := by
  simp [State.controllerReady_iff, hr, hx]

end Sys2Proof.Machine
end

section
/-! What a command that ends OK has done: its transactions, all of them. -/

namespace Sys2Proof.Machine

open Sys2Proof

/-- No transaction ends its command: the commit is a step of its own (R80, R115). -/
theorem transact_phase_ne_idle {s : State} (kind : TxKind) (tx : List Byte) (h : s.phase ≠ .idle) :
    (s.transact kind tx).phase ≠ .idle := by
  rcases transact_cases kind tx s with ⟨_, _, _, e⟩ | ⟨_, e⟩ | ⟨_, e⟩ <;> simp [e, h]

/-- A one-transaction command that ends OK has completed its transaction. -/
theorem oneTransaction_ok {kind : TxKind} {tx : List Byte} {commit : State → State} {s : State} (hp : s.phase ≠ .idle)
    (hi : (oneTransaction kind tx commit s).phase = .idle) (ho : (oneTransaction kind tx commit s).status.err = .ok) :
    s.opl.failed = false ∧ 1 ≤ s.phase.step := by
  rcases oneTransaction_cases kind tx commit s with ⟨_, e⟩ | ⟨_, _, e⟩ | ⟨hf, hn, _⟩
  · simp [e] at ho
  · exact absurd (e ▸ hi) (transact_phase_ne_idle kind tx hp)
  · exact ⟨hf, hn⟩

/-- A two-transaction command that ends OK has completed both, if its commit after a failed transaction is an error's. -/
theorem twoTransactions_ok {kind1 kind2 : TxKind} {tx1 tx2 : List Byte} {onFail commit : State → State} {s : State}
    (hp : s.phase ≠ .idle) (hfail : (onFail s).status.err ≠ .ok)
    (hi : (twoTransactions kind1 tx1 kind2 tx2 onFail commit s).phase = .idle)
    (ho : (twoTransactions kind1 tx1 kind2 tx2 onFail commit s).status.err = .ok) :
    s.opl.failed = false ∧ 2 ≤ s.phase.step := by
  rcases twoTransactions_cases kind1 tx1 kind2 tx2 onFail commit s with ⟨_, e⟩ | ⟨_, _, e⟩ | ⟨_, _, e⟩ | ⟨hf, hn, _⟩
  · exact absurd (e ▸ ho) hfail
  · exact absurd (e ▸ hi) (transact_phase_ne_idle kind1 tx1 hp)
  · exact absurd (e ▸ hi) (transact_phase_ne_idle kind2 tx2 hp)
  · exact ⟨hf, hn⟩

/-- A command that ends OK has performed all its transactions, and none of them failed (R51, R115). -/
theorem exec_ok {i : Instr} {s t : State} (h : exec i s = .next t) (hp : s.phase ≠ .idle) (hi : t.phase = .idle)
    (ho : t.status.err = .ok) :
    (s.opl.failed = false ∨ transactionsOf i = 0) ∧ transactionsOf i ≤ s.phase.step := by
  cases i with
  | configure cfg =>
    cases h
    exact (twoTransactions_ok hp (by simp [configureFails]) hi ho).imp_left .inl
  | readRaw | measure =>
    cases h
    by_cases hg : refusedByState s = true
    · simp [hg] at ho
    · rw [if_neg hg] at hi ho
      exact (twoTransactions_ok hp (by simp) hi ho).imp_left .inl
  | rwHalf | xfer | writeReg | readReg =>
    cases h
    exact (oneTransaction_ok hp hi ho).imp_left .inl
  | isReady | decode | lookup | softReset => exact ⟨.inr rfl, Nat.zero_le _⟩

end Sys2Proof.Machine
end

section
/-! A command left to run: how many turns of the controller it needs, and what it leaves (R80, R114). -/

namespace Sys2Proof.Machine

open Sys2Proof Sys2Proof.Certificates

/-- Command `i` is latched and the controller has its next step to take. -/
structure State.Running (i : Instr) (s : State) : Prop where
  ready : s.controllerReady = true
  busy : s.status.busy = true
  dec : decodeWord s.opl.w = .command i

/-- The turns the controller needs at most to end the running command: one for each transaction left and one for the commit. -/
def State.turnsLeft (i : Instr) (s : State) : Nat :=
  if s.opl.failed then 1 else transactionsOf i - s.phase.step + 1

/-- The command has committed, or hangs. -/
def State.EndedOrHung (t : State) : Prop :=
  (t.phase = .idle ∧ t.status.busy = false ∧ t.xf = none) ∨
    (t.phase ≠ .idle ∧ t.status.busy = true ∧ t.xf ≠ none ∧ t.cs = false)

/-- From `s` to `t` the history has grown by the transactions of `i` that were left at `s`, and none of `i`'s has failed. -/
def Completed (i : Instr) (s t : State) : Prop :=
  (s.opl.failed = false ∨ transactionsOf i = 0) ∧
    ∃ es, t.hist = s.hist ++ es ∧ es.map Event.kind = (transactionKinds i).drop s.phase.step ∧
      ∀ e ∈ es, e.result ≠ .ioFail

/-- The kinds of the row of R51 are those of the command's transactions. -/
theorem transactionKinds_eq_map (p : Params) (i : Instr) : transactionKinds i = (busTraffic p i).map Prod.fst := by
  cases i <;> rfl

theorem transactionKinds_length (i : Instr) : (transactionKinds i).length = transactionsOf i := by cases i <;> rfl

theorem transactionsOf_le_two (i : Instr) : transactionsOf i ≤ 2 := by cases i <;> simp [transactionsOf]

/-- The transactions left before a transaction are its own and those left after it. -/
theorem transactionKinds_drop {p : Params} {i : Instr} {n : Nat} {kind : TxKind} {tx : List Byte}
    (h : (busTraffic p i)[n]? = some (kind, tx)) :
    (transactionKinds i).drop n = kind :: (transactionKinds i).drop (n + 1) := by
  have hk : (transactionKinds i)[n]? = some kind := by simp [transactionKinds_eq_map p, h]
  obtain ⟨hn, hget⟩ := List.getElem?_eq_some_iff.mp hk
  rw [List.drop_eq_getElem_cons hn, hget]

/-- A completed transaction leaves the command running, with one transaction fewer to do. -/
theorem State.Running.txDone {i : Instr} {s : State} (h : s.Running i) (kind : TxKind) (tx : List Byte) (rx : Rx) :
    (s.txDone kind tx rx).Running i := by
  obtain ⟨hr, hp, hx⟩ := s.controllerReady_iff.mp h.ready
  exact ⟨by simp [State.controllerReady_iff, hr, hp], h.busy, by simpa using h.dec⟩

/-- A failed transaction leaves the command running: it raises IO at its next step (R115). -/
theorem State.Running.txFail {i : Instr} {s : State} (h : s.Running i) (kind : TxKind) (tx : List Byte) :
    (s.txFail kind tx).Running i := by
  obtain ⟨hr, hp, hx⟩ := s.controllerReady_iff.mp h.ready
  exact ⟨by simp [State.controllerReady_iff, hr, hp], h.busy, h.dec⟩

/-- The record of the transactions left before a completed one, from that of those left after it. -/
theorem Completed.of_txDone {i : Instr} {s t : State} {kind : TxKind} {tx : List Byte} {rx : Rx} (hp : s.phase ≠ .idle)
    (hf : s.opl.failed = false) (hs : (busTraffic s.params i)[s.phase.step]? = some (kind, tx))
    (h : Completed i (s.txDone kind tx rx) t) : Completed i s t := by
  obtain ⟨-, es, hist, kinds, good⟩ := h
  refine ⟨.inl hf, ⟨kind, tx, .bytes (received kind rx)⟩ :: es, by simp [hist], ?_, ?_⟩
  · rw [transactionKinds_drop hs, List.map_cons, kinds, State.txDone_phase, Phase.step_advance hp]
  · simpa using good

/-- A running command given the turns it needs commits or hangs, and when it ends OK all its transactions have completed. -/
theorem controllerTurns_ends {i : Instr} :
    ∀ (k : Nat) (s : State), s.Running i → s.turnsLeft i ≤ k →
      ∃ t, controllerTurns k s = .next t ∧ t.EndedOrHung ∧ (t.phase = .idle → t.status.err = .ok → Completed i s t)
  | 0, s, _, hk => by
    unfold State.turnsLeft at hk
    split at hk <;> omega
  | k + 1, s, hrun, hk => by
    obtain ⟨hr, hp, hx⟩ := s.controllerReady_iff.mp hrun.ready
    obtain ⟨u, hu⟩ := exec_next i s
    rw [controllerTurns_succ_of_command hrun.ready hrun.dec hu]
    cases exec_step hu with
    | transaction kind tx failed more sent allowed eq =>
      subst eq
      have hleft : transactionsOf i - s.phase.step ≤ k := by simpa [State.turnsLeft, failed] using hk
      rcases transact_cases kind tx s with ⟨rx0, rx1, _, e⟩ | ⟨_, e⟩ | ⟨_, e⟩ <;> rw [e]
      · obtain ⟨t, ht, hend, hok⟩ := controllerTurns_ends k _ (hrun.txDone kind tx ⟨rx0, rx1⟩)
          (by simp [State.turnsLeft, failed, Phase.step_advance hp]; omega)
        exact ⟨t, ht, hend, fun hi ho => (hok hi ho).of_txDone hp failed sent⟩
      · obtain ⟨t, ht, hend, hok⟩ := controllerTurns_ends k _ (hrun.txFail kind tx)
          (by simp [State.turnsLeft]; omega)
        refine ⟨t, ht, hend, fun hi ho => ?_⟩
        obtain ⟨hnot | hnone, -⟩ := hok hi ho
        · simp at hnot
        · omega
      · exact ⟨_, controllerTurns_of_not_ready (by simp [State.controllerReady]) k,
          .inr ⟨hp, hrun.busy, by simp, rfl⟩, fun hi => absurd hi hp⟩
    | commit idle done frame =>
      refine ⟨u, controllerTurns_of_not_ready (by simp [State.controllerReady, idle]) k,
        .inl ⟨idle, done, frame.xf.trans hx⟩, fun hi ho => ?_⟩
      obtain ⟨hfailed, hall⟩ := exec_ok hu hp hi ho
      refine ⟨hfailed, [], by simp [frame.hist], ?_, by simp⟩
      rw [List.drop_of_length_le (by rwa [transactionKinds_length]), List.map_nil]

/-- A command is running once issued, out of reset with the bus free (R79). -/
theorem running_issue {s : State} {w : Word} {i : Instr} (hr : s.rst = false) (hx : s.xf = none)
    (hd : decodeWord w = .command i) : (s.issue w).Running i :=
  ⟨controllerReady_issue w hr hx, rfl, hd⟩

/-- Three turns are enough for a command just issued: it has at most two transactions (R51). -/
theorem turnsLeft_issue_le (i : Instr) (s : State) (w : Word) : (s.issue w).turnsLeft i ≤ 3 := by
  have := transactionsOf_le_two i
  simp [State.turnsLeft]
  omega

/-- The command of an illegal word ends with ILLEGAL and nothing else of it happens (R96). -/
theorem commandRun_of_illegal {s : State} {w : Word} {why : Illegal} (hr : s.rst = false) (hx : s.xf = none)
    (hd : decodeWord w = .illegal why) : commandRun w s = .next ((s.issue w).finish .illegal) := by
  rw [commandRun, controllerTurns_succ_of_illegal (controllerReady_issue w hr hx) hd]
  exact controllerTurns_of_not_ready (by simp [State.controllerReady]) 2

end Sys2Proof.Machine
end

section
/-! The end of a command. -/

open Sys2Proof Sys2Proof.Machine

/-- Settles O57: by induction on the turns of the controller; the command needs one for each transaction left and one for its
commit. -/
theorem commandEndsOrHangs : Obligations.CommandEndsOrHangs := by
  unfold Obligations.CommandEndsOrHangs
  intro s w hr hx
  cases hd : decodeWord w with
  | illegal why => exact ⟨_, commandRun_of_illegal hr hx hd, .inl ⟨rfl, rfl, hx⟩, fun _ ho => by simp at ho⟩
  | command i =>
    obtain ⟨t, ht, hend, hok⟩ := controllerTurns_ends 3 _ (running_issue hr hx hd) (turnsLeft_issue_le i s w)
    refine ⟨t, ht, hend, fun hi ho => ?_⟩
    obtain ⟨-, es, hist, kinds, good⟩ := hok hi ho
    exact ⟨i, es, rfl, hist, kinds, good⟩

end

section
/-! What a step leaves of the parameters and of the history. -/

namespace Sys2Proof.Machine

open Sys2Proof

theorem transact_params (kind : TxKind) (tx : List Byte) (s : State) : (s.transact kind tx).params = s.params := by
  rcases transact_cases kind tx s with ⟨_, _, _, e⟩ | ⟨_, e⟩ | ⟨_, e⟩ <;> rw [e] <;> rfl

theorem ExecStep.params {i : Instr} {s t : State} (h : ExecStep i s t) : t.params = s.params := by
  cases h with
  | transaction kind tx _ _ _ _ eq => rw [eq, transact_params]
  | commit _ _ frame => exact frame.params

/-- The bytes an event records for a transaction answered with `r0` and `r1`. -/
theorem received_eq (kind : TxKind) (r0 r1 : Byte) : received kind ⟨r0, r1⟩ = if kind = .write then [] else [r0, r1] := by
  cases kind <;> rfl

@[simp] theorem resetTurn_params (level : Bool) (s : State) : (s.resetTurn level).params = s.params := by
  cases level <;> rfl

@[simp] theorem resetTurn_hist (level : Bool) (s : State) : (s.resetTurn level).hist = s.hist := by
  cases level <;> rfl

/-- The turn of the host changes neither the parameters nor the history. -/
theorem HostStep.params_hist {s t : State} (h : HostStep s t) : t.params = s.params ∧ t.hist = s.hist := by
  cases h <;> subst t <;> exact ⟨rfl, rfl⟩

theorem step_params {s t : State} (h : step s = .next t) : t.params = s.params := by
  obtain ⟨-, h⟩ := step_cases h
  cases h with
  | reset level rest _ eq => rw [eq, resetTurn_params]
  | command rest i _ _ _ eq => exact (exec_step eq).params
  | illegal rest why _ _ _ eq => rw [eq, State.finish_params]
  | waits rest eq => rw [eq]
  | host rest h => exact h.params_hist.1

end Sys2Proof.Machine
end

section
/-! The history and the parameters along a step. -/

open Sys2Proof Sys2Proof.Machine

/-- Settles O18: only a transaction of the running command touches the history, and it appends its event unless it hangs. -/
theorem historyGrowsByTransactions : Obligations.HistoryGrowsByTransactions := by
  unfold Obligations.HistoryGrowsByTransactions
  intro s t h
  obtain ⟨-, h⟩ := step_cases h
  cases h with
  | reset level rest _ eq => exact .inl (by rw [eq, resetTurn_hist])
  | illegal rest why _ _ _ eq => exact .inl (by rw [eq, State.finish_hist])
  | waits rest eq => exact .inl (by rw [eq])
  | host rest h => exact .inl h.params_hist.2
  | command rest i turn ready dec eq =>
    have hp : s.phase ≠ .idle := (s.controllerReady_iff.mp ready).2.1
    have hturn : (∃ rest, s.turns = .ctrl :: rest) ∨ s.turns = [] := turn.imp_left (⟨rest, ·⟩)
    cases exec_step eq with
    | commit _ _ frame => exact .inl frame.hist
    | transaction kind tx _ _ sent _ eq =>
      rcases transact_cases kind tx { s with turns := rest } with ⟨r0, r1, ha, e⟩ | ⟨ha, e⟩ | ⟨_, e⟩ <;> rw [eq, e]
      · exact .inr ⟨kind, tx, _, i, rfl, hturn, ready, dec, sent, .inr ⟨r0, r1, ha, by rw [received_eq]⟩, rfl, rfl,
          by simpa using hp⟩
      · exact .inr ⟨kind, tx, _, i, rfl, hturn, ready, dec, sent, .inl ⟨ha, rfl⟩, rfl, rfl, hp⟩
      · exact .inl rfl

/-- Settles O21: no step changes the parameters. -/
theorem instanceNeverChanges : Obligations.InstanceNeverChanges := by
  unfold Obligations.InstanceNeverChanges
  refine ⟨rfl, fun s t h => ?_⟩
  have hp := step_params h
  simp [Reg.read, hp, State.powerOn]

end

section
/-! The words of the window, bit by bit. -/

namespace Sys2Proof.Machine

open Sys2Proof

/-- The fields of the STATUS word: each is found by dropping the fields below it (R25, R33). -/
theorem statusWord_fields (st : Status) :
    st.word.getLsbD 0 = st.busy ∧ st.word.extractLsb' 1 2 = st.state.code ∧ st.word.getLsbD 3 = st.sticky ∧
      st.word.extractLsb' 4 4 = st.err.code ∧ st.word.getLsbD 8 = st.fault ∧ st.word.getLsbD 9 = st.oor ∧
      st.word.getLsbD 10 = st.ready ∧ st.word.extractLsb' 11 21 = 0#21 := by
  simp (disch := decide) only [Status.word, BitVec.getLsbD_append, BitVec.extractLsb'_append_eq_of_le,
    BitVec.extractLsb'_append_eq_of_add_le]
  simp

@[simp] theorem statusWord_reset : Status.reset.word = 0#32 := by decide

/-- The fields of the INFO word, N cut to the 16 bits it has there (R33, R40). -/
theorem infoWord_fields (p : Params) :
    (infoWord p).getLsbD 0 = p.hasReadyLine ∧ (infoWord p).getLsbD 1 = p.readyActive ∧
      (infoWord p).getLsbD 2 = p.wire3Bit ∧ (infoWord p).extractLsb' 3 3 = p.rsvd ∧
      (infoWord p).extractLsb' 6 2 = 0#2 ∧ (infoWord p).extractLsb' 8 8 = p.verifyMask ∧
      (infoWord p).extractLsb' 16 16 = BitVec.ofNat 16 p.table.length := by
  simp (disch := decide) only [infoWord, BitVec.getLsbD_append, BitVec.extractLsb'_append_eq_of_le,
    BitVec.extractLsb'_append_eq_of_add_le]
  simp

/-- A legal table's length fits the 16 bits it has in INFO (R7, R40). -/
theorem table_length_lt_of_legal {p : Params} (h : p.legal = true) : p.table.length < 2 ^ 16 := by
  simp only [Params.legal, Bool.and_eq_true, decide_eq_true_eq] at h
  omega

theorem rawWord_eq_append (raw : BitVec 16) : rawWord raw = 0#16 ++ raw := by
  rw [rawWord, BitVec.setWidth_eq_append (by decide), BitVec.cast_eq]

theorem rxdWord_eq_append (rxd : Byte) : rxdWord rxd = 0#24 ++ rxd := by
  rw [rxdWord, BitVec.setWidth_eq_append (by decide), BitVec.cast_eq]

/-- The reserved bits of the CFG word (R33, R37). -/
theorem cfgWord_reserved (cfgw cfgrb : Byte) : (cfgWord cfgw cfgrb).extractLsb' 16 16 = 0#16 := by
  rw [cfgWord, BitVec.extractLsb'_append_eq_of_le (by decide), BitVec.extractLsb'_append_eq_left]

end Sys2Proof.Machine
end

section
/-! What the registers of the window read. -/

open Sys2Proof Sys2Proof.Machine

/-- Settles O7: every register of the window but CAL and INFO is made of fields that power-on clears. -/
theorem powerOnValues : Obligations.PowerOnValues := by
  unfold Obligations.PowerOnValues
  intro p
  refine ⟨⟨by simp [State.powerOn], rfl, rfl, by simp [State.powerOn], rfl⟩, rfl, statusWord_reset, fun r => ?_⟩
  cases r <;> simp [Reg.read, State.powerOn, rawWord, cfgWord, rxdWord]

/-- Settles O24: the obligation writes out the codes of STATE and ERR. -/
theorem statusWordFields : Obligations.StatusWordFields := by
  unfold Obligations.StatusWordFields
  exact fun s => statusWord_fields s.status

/-- Settles O25: the reserved bits are zeros that the words are built with, whatever the fields hold. -/
theorem reservedBitsReadZero : Obligations.ReservedBitsReadZero := by
  unfold Obligations.ReservedBitsReadZero
  intro s
  obtain ⟨-, -, -, -, -, -, -, status⟩ := statusWord_fields s.status
  obtain ⟨-, -, -, -, info, -, -⟩ := infoWord_fields s.params
  refine ⟨status, ?_, cfgWord_reserved s.cfgw s.cfgrb, ?_, info⟩
  · rw [Reg.read, rawWord_eq_append, BitVec.extractLsb'_append_eq_left]
  · rw [Reg.read, rxdWord_eq_append, BitVec.extractLsb'_append_eq_left]

/-- Settles O26: N fits its field because the parameters are legal. -/
theorem infoWordFields : Obligations.InfoWordFields := by
  unfold Obligations.InfoWordFields
  refine ⟨rfl, fun s hl => ?_⟩
  obtain ⟨readyLine, readyActive, wire3, rsvd, zeros, mask, count⟩ := infoWord_fields s.params
  have hN : ((infoWord s.params).extractLsb' 16 16).toNat = s.params.table.length := by
    rw [count, BitVec.toNat_ofNat, Nat.mod_eq_of_lt (table_length_lt_of_legal hl)]
  exact ⟨readyLine, readyActive, wire3, rsvd, zeros, mask, hN, fun t h => congrArg infoWord (step_params h)⟩

end

section
/-! The host's turn: one access of its program to the window (R60). -/

namespace Sys2Proof.Machine

open Sys2Proof

/-- An address of the window has its distance from BASE as its offset (R60). -/
theorem windowOffset_add (p : Params) {off : Nat} (h : off < 64) : windowOffset p (p.base + off) = some off := by
  simp [windowOffset, h]

section Access

variable {s : State} {off n : Nat} {rest : List Turn} {prog : List HostOp}
  (hl : s.params.legal = true) (hn : s.held = none) (ht : s.turns = .host :: rest) (ho : off < 64)
include hl hn ht ho

/-- The host's read of the window is answered, and changes nothing else (R60, R64). -/
theorem step_hostRead (hp : s.program = .read (s.params.base + off) n :: prog) :
    step s = .next ({ s with turns := rest, program := prog }.answer (readAnswer s off n)) := by
  simp only [step, agentStep, hl, if_true, ht, hostTurn, hn, hp, hostOperation, hostRead, windowOffset_add _ ho]
  rfl

/-- The host's write to the window does what the window makes of it (R60). -/
theorem step_hostWrite {v : Word} (hp : s.program = .write (s.params.base + off) n v :: prog) :
    step s = .next (writeWindow off n v { s with turns := rest, program := prog }) := by
  simp only [step, agentStep, hl, if_true, ht, hostTurn, hn, hp, hostOperation, hostWrite, windowOffset_add _ ho]

end Access

/-- A 4-byte write to ARG out of reset stores the word, whether or not a command runs (R24, R65). -/
theorem writeWindow_arg {s : State} (h : s.rst = false) (v : Word) :
    writeWindow Reg.arg.offset 4 v s = { s with arg := v }.answer .ok := by
  simp only [writeWindow, h, ofOffset_offset]
  rfl

end Sys2Proof.Machine
end

section
/-! Reads of the registers, and writes to ARG. -/

open Sys2Proof Sys2Proof.Machine

/-- Settles O31: the write reaches the window, which stores it without a look at BUSY. -/
theorem argWriteStores : Obligations.ArgWriteStores := by
  unfold Obligations.ArgWriteStores
  intro s v rest prog hl hr hn ht hp
  rw [step_hostWrite hl hn ht (by decide) hp]
  exact congrArg _ (writeWindow_arg (s := { s with turns := rest, program := prog }) hr v)

/-- Settles O27: each of the ten offsets is a register's, and the read is answered with it. -/
theorem registerReadsChangeNothing : Obligations.RegisterReadsChangeNothing := by
  unfold Obligations.RegisterReadsChangeNothing
  intro s off val rest prog hl hr hn ht hp hval
  have hreg : ∃ r : Reg, off = r.offset ∧ val = r.read s := by
    rcases hval with h | h | h | h | h | h | h | h | h | h
    · exact ⟨.cmd, h⟩
    · exact ⟨.arg, h⟩
    · exact ⟨.status, h⟩
    · exact ⟨.raw, by rwa [Reg.read, rawWord_eq_append]⟩
    · exact ⟨.ohms, h⟩
    · exact ⟨.temp, h⟩
    · exact ⟨.cfg, h⟩
    · exact ⟨.rxd, by rwa [Reg.read, rxdWord_eq_append]⟩
    · exact ⟨.cal, h⟩
    · exact ⟨.info, h⟩
  obtain ⟨r, rfl, rfl⟩ := hreg
  have hoff : r.offset < 64 := by cases r <;> decide
  rw [step_hostRead hl hn ht hoff hp, readAnswer_register s r hr]
  rfl

end

section
/-! The host's turn on a register: accesses that are refused, and writes to CMD, issued or held (R61, R63, R65, R79). -/

namespace Sys2Proof.Machine

open Sys2Proof

theorem Reg.offset_lt (r : Reg) : r.offset < 0x28 := by cases r <;> decide

/-- The register found at an offset is the one that has it (R22). -/
theorem ofOffset_eq_some_iff {off : Nat} {r : Reg} : Reg.ofOffset off = some r ↔ r.offset = off := by
  constructor
  · intro h
    simpa using List.find?_some h
  · rintro rfl
    exact ofOffset_offset r

/-- From 0x28 on the window holds no register (R22, R63). -/
theorem ofOffset_eq_none {off : Nat} (h : 0x28 ≤ off) : Reg.ofOffset off = none := by
  cases hr : Reg.ofOffset off with
  | none => rfl
  | some r =>
    have hlt : r.offset < 0x28 := r.offset_lt
    have hoff : r.offset = off := ofOffset_eq_some_iff.mp hr
    omega

/-- An access that is not refused for reset or its shape is one of 4 bytes at an aligned offset (R61, R260). -/
theorem shape_of_not_refused {rst : Bool} {off n : Nat} (h : ¬(rst || !acceptedShape off n) = true) :
    n = 4 ∧ off % 4 = 0 := by
  have hall : rst = false ∧ n = 4 ∧ off % 4 = 0 := by simpa [acceptedShape] using h
  exact hall.2

/-- A read of another width, misaligned, or at a reserved offset is a bus error, in reset or out of it (R61, R63). -/
theorem readAnswer_busErr (s : State) {off n : Nat} (h : n ≠ 4 ∨ off % 4 ≠ 0 ∨ 0x28 ≤ off) :
    readAnswer s off n = .busErr := by
  unfold readAnswer
  split
  · rfl
  · obtain ⟨hn, halign⟩ := shape_of_not_refused ‹_›
    rw [ofOffset_eq_none (by omega)]

/-- A write of another width, misaligned, or beyond ARG is a bus error: those offsets are reserved or read-only (R61, R63). -/
theorem writeWindow_busErr (v : Word) (s : State) {off n : Nat} (h : n ≠ 4 ∨ off % 4 ≠ 0 ∨ 0x08 ≤ off) :
    writeWindow off n v s = s.answer .busErr := by
  unfold writeWindow
  split
  · rfl
  · obtain ⟨hn, halign⟩ := shape_of_not_refused ‹_›
    have hreg : ∀ r, Reg.ofOffset off = some r → 0x08 ≤ r.offset := fun r hr => by
      rw [ofOffset_eq_some_iff.mp hr]
      omega
    split
    · exact absurd (hreg .cmd ‹_›) (by decide)
    · exact absurd (hreg .arg ‹_›) (by decide)
    all_goals rfl

/-- A 4-byte write to CMD out of reset with no command running issues its word (R79). -/
theorem writeWindow_cmd_free {s : State} (hr : s.rst = false) (hb : s.status.busy = false) (w : Word) :
    writeWindow Reg.cmd.offset 4 w s = (s.issue w).answer .ok := by
  simp only [writeWindow, hr, hb, ofOffset_offset]
  rfl

/-- A 4-byte write to CMD out of reset while a command runs is held (R65). -/
theorem writeWindow_cmd_busy {s : State} (hr : s.rst = false) (hb : s.status.busy = true) (w : Word) :
    writeWindow Reg.cmd.offset 4 w s = { s with held := some w } := by
  simp only [writeWindow, hr, hb, ofOffset_offset]
  rfl

/-- While a CMD write is held the host's turn only tries to complete it (R65). -/
theorem step_hostHeld {s : State} {rest : List Turn} {w : Word} (hl : s.params.legal = true) (hh : s.held = some w)
    (ht : s.turns = .host :: rest) : step s = .next ({ s with turns := rest }.completeHeld w) := by
  simp only [step, agentStep, hl, if_true, ht, hostTurn, hh]

theorem completeHeld_busy {s : State} (hb : s.status.busy = true) (w : Word) : s.completeHeld w = s := by
  simp [State.completeHeld, hb]

theorem completeHeld_free {s : State} (hb : s.status.busy = false) (w : Word) :
    s.completeHeld w = ({ s with held := none }.issue w).answer .ok := by
  simp [State.completeHeld, hb]

/-- With PHASE IDLE no command runs (R26). -/
theorem State.Inv.not_busy {s : State} (h : s.Inv) (hp : s.phase = .idle) : s.status.busy = false :=
  Bool.eq_false_iff.mpr fun hb => h.busy.mp hb hp

end Sys2Proof.Machine
end

section
/-! Bus errors, and writes to CMD. -/

open Sys2Proof Sys2Proof.Machine

/-- Settles O28: the access reaches the window, which refuses it by its shape or for want of a register to read or write. -/
theorem windowBusErrors : Obligations.WindowBusErrors := by
  unfold Obligations.WindowBusErrors
  rintro s off n rest prog hl hn ht ho (⟨hp, hbad⟩ | ⟨v, hp, hbad⟩)
  · rw [step_hostRead hl hn ht ho hp, readAnswer_busErr s hbad]
    rfl
  · rw [step_hostWrite hl hn ht ho hp, writeWindow_busErr v _ hbad]
    rfl

/-- Settles O29: with PHASE IDLE the invariant gives BUSY 0, so the window issues the word. -/
theorem cmdWriteIssues : Obligations.CmdWriteIssues := by
  unfold Obligations.CmdWriteIssues
  intro s w rest prog hinv hr hn hi ht hp
  rw [step_hostWrite hinv.legal hn ht (off := Reg.cmd.offset) (by decide) hp]
  exact congrArg _ (writeWindow_cmd_free (s := { s with turns := rest, program := prog }) hr (hinv.not_busy hi) w)

/-- Settles O30: a CMD write looks at BUSY when it comes and at every turn while it is held; no other access does. -/
theorem cmdWriteHeldWhileBusy : Obligations.CmdWriteHeldWhileBusy := by
  unfold Obligations.CmdWriteHeldWhileBusy
  intro s rest hl hr ht
  refine ⟨fun w prog hn hb hp => ?_, fun w hh hb => ?_, fun w hh hb => ?_, fun v prog hn _ hp => ?_,
    fun r prog hn _ hp => ?_⟩
  · rw [step_hostWrite hl hn ht (off := Reg.cmd.offset) (by decide) hp]
    exact congrArg _ (writeWindow_cmd_busy (s := { s with turns := rest, program := prog }) hr hb w)
  · rw [step_hostHeld hl hh ht]
    exact congrArg _ (completeHeld_busy (s := { s with turns := rest }) hb w)
  · rw [step_hostHeld hl hh ht]
    exact congrArg _ (completeHeld_free (s := { s with turns := rest }) hb w)
  · exact argWriteStores s v rest prog hl hr hn ht hp
  · rw [step_hostRead hl hn ht (Nat.lt_trans r.offset_lt (by decide)) hp, readAnswer_register s r hr]
    rfl

end

section
/-! What a step leaves of the command it leaves running (R79, R83, R85). -/

namespace Sys2Proof.Machine

open Sys2Proof

/-- What the registers of the window other than CMD, ARG and STATUS are made of. -/
def State.results (s : State) : Params × BitVec 16 × Word × Word × Byte × Byte × Byte :=
  (s.params, s.raw, s.ohms, s.temp, s.cfgw, s.cfgrb, s.rxd)

/-- What names the running command and its operand: CMD, OPL.w and OPL.arg. -/
def State.latched (s : State) : Word × Word × Word := (s.cmd, s.opl.w, s.opl.arg)

theorem Reg.read_of_results {s t : State} (h : t.results = s.results) {r : Reg} (hc : r ≠ .cmd) (ha : r ≠ .arg)
    (hs : r ≠ .status) : r.read t = r.read s := by
  simp only [State.results, Prod.mk.injEq] at h
  obtain ⟨params, raw, ohms, temp, cfgw, cfgrb, rxd⟩ := h
  cases r <;> simp_all [Reg.read]

/-- A transaction writes no register (R80, R85). -/
theorem transact_registers (kind : TxKind) (tx : List Byte) (s : State) :
    (s.transact kind tx).status = s.status ∧ (s.transact kind tx).arg = s.arg ∧
      (s.transact kind tx).results = s.results ∧ (s.transact kind tx).latched = s.latched := by
  rcases transact_cases kind tx s with ⟨_, _, _, e⟩ | ⟨_, e⟩ | ⟨_, e⟩ <;> rw [e] <;>
    simp [State.results, State.latched]

/-- What a step that leaves a command running can have done: kept the one that ran, or issued one. -/
inductive LeavesRunning (s t : State) : Prop where
  | keeps (running : s.phase ≠ .idle) (status : t.status = s.status) (results : t.results = s.results)
      (latched : t.latched = s.latched)
  | issues (free : s.status.busy = false) (status : t.status = { s.status with busy := true })
      (results : t.results = s.results) (word : t.cmd = t.opl.w)

/-- Taking a turn off the list is no part of what a step does. -/
theorem LeavesRunning.of_turns {s t : State} {rest : List Turn} (h : LeavesRunning { s with turns := rest } t) :
    LeavesRunning s t := by
  cases h with
  | keeps running status results latched => exact .keeps running status results latched
  | issues free status results word => exact .issues free status results word

/-- Of the host's accesses only a CMD write, at once or held, touches the running command: it issues one (R64, R65). -/
theorem HostStep.leavesRunning {s t : State} (h : HostStep s t) (hp : t.phase ≠ .idle) : LeavesRunning s t := by
  cases h with
  | issues p v _ free eq => subst eq; exact .issues free rfl rfl rfl
  | completes w _ free eq => subst eq; exact .issues free rfl rfl rfl
  | waits eq | answered _ _ eq | holds _ _ _ _ _ eq | writesArg _ _ _ eq => subst eq; exact .keeps hp rfl rfl rfl

/-- A command's step that does not commit is a transaction (R80, R85). -/
theorem ExecStep.leavesRunning {i : Instr} {s t : State} (h : ExecStep i s t) (hs : s.phase ≠ .idle)
    (hp : t.phase ≠ .idle) : LeavesRunning s t := by
  cases h with
  | transaction kind tx _ _ _ _ eq =>
    obtain ⟨status, -, results, latched⟩ := transact_registers kind tx s
    subst eq
    exact .keeps hs status results latched
  | commit idle _ _ => exact absurd idle hp

theorem step_leavesRunning {s t : State} (h : step s = .next t) (hp : t.phase ≠ .idle) : LeavesRunning s t := by
  obtain ⟨-, h⟩ := step_cases h
  cases h with
  | reset level rest _ eq =>
    subst eq
    cases level with
    | true => exact absurd rfl hp
    | false => exact .keeps hp rfl rfl rfl
  | command rest i _ ready _ eq =>
    exact ((exec_step eq).leavesRunning (s.controllerReady_iff.mp ready).2.1 hp).of_turns
  | illegal rest why _ _ _ eq => exact absurd (by rw [eq, State.finish_phase]) hp
  | waits rest eq => subst eq; exact .keeps hp rfl rfl rfl
  | host rest h => exact (h.leavesRunning hp).of_turns

end Sys2Proof.Machine
end

section
/-! What a command does does not depend on ARG (R83). -/

namespace Sys2Proof.Machine

open Sys2Proof

/-- `s` with another word in ARG. -/
def State.setArg (v : Word) (s : State) : State := { s with arg := v }

@[simp] theorem State.setArg_params (v : Word) (s : State) : (s.setArg v).params = s.params := rfl
@[simp] theorem State.setArg_phase (v : Word) (s : State) : (s.setArg v).phase = s.phase := rfl
@[simp] theorem State.setArg_opl (v : Word) (s : State) : (s.setArg v).opl = s.opl := rfl

/-- An operation that neither looks at ARG nor writes it. -/
def ArgBlind (f : State → State) : Prop := ∀ (v : Word) (s : State), f (s.setArg v) = (f s).setArg v

theorem argBlind_finish (code : ErrCode) : ArgBlind (State.finish code) := fun _ _ => rfl

theorem argBlind_transact (kind : TxKind) (tx : List Byte) : ArgBlind (State.transact kind tx) := by
  intro v s
  have hanswer : (s.setArg v).spiAnswer kind tx = s.spiAnswer kind tx := rfl
  unfold State.transact
  rw [hanswer]
  split <;> rfl

theorem argBlind_oneTransaction (kind : TxKind) (tx : List Byte) {commit : State → State} (hc : ArgBlind commit) :
    ArgBlind (oneTransaction kind tx commit) := by
  intro v s
  cases hf : s.opl.failed with
  | true => simp [oneTransaction, hf, argBlind_finish .io v s]
  | false =>
    match hn : s.phase.step with
    | 0 => simp [oneTransaction, hf, hn, argBlind_transact kind tx v s]
    | n + 1 => simp [oneTransaction, hf, hn, hc v s]

theorem argBlind_twoTransactions (kind1 : TxKind) (tx1 : List Byte) (kind2 : TxKind) (tx2 : List Byte)
    {onFail commit : State → State} (hfail : ArgBlind onFail) (hc : ArgBlind commit) :
    ArgBlind (twoTransactions kind1 tx1 kind2 tx2 onFail commit) := by
  intro v s
  cases hf : s.opl.failed with
  | true => simp [twoTransactions, hf, hfail v s]
  | false =>
    match hn : s.phase.step with
    | 0 => simp [twoTransactions, hf, hn, argBlind_transact kind1 tx1 v s]
    | 1 => simp [twoTransactions, hf, hn, argBlind_transact kind2 tx2 v s]
    | n + 2 => simp [twoTransactions, hf, hn, hc v s]

/-- The choice between two operations that a condition on the rest of the state makes. -/
theorem argBlind_ite {c : State → Bool} {f g : State → State} (hc : ∀ v s, c (State.setArg v s) = c s) (hf : ArgBlind f)
    (hg : ArgBlind g) : ArgBlind fun s => if c s then f s else g s := by
  intro v s
  cases h : c s with
  | true => simp [hc, h, hf v s]
  | false => simp [hc, h, hg v s]

theorem argBlind_configureCommits (b : Byte) : ArgBlind (configureCommits b) :=
  argBlind_ite (c := fun s => verifyPasses s.params b s.opl.rx2.b1) (fun _ _ => rfl) (fun _ _ => rfl) fun _ _ => rfl

/-- The step of READ_RAW and of MEASURE, which STATE may refuse (R163, R218). -/
theorem argBlind_guardedReads {commit : State → State} (hc : ArgBlind commit) :
    ArgBlind fun s => if refusedByState s then s.raise .state
      else twoTransactions .full (readBytes addrMsb) .full (readBytes addrLsb) (State.raise .io) commit s :=
  argBlind_ite (fun _ _ => rfl) (argBlind_finish .state) (argBlind_twoTransactions _ _ _ _ (argBlind_finish .io) hc)

theorem argBlind_isReady : ArgBlind fun s =>
    if s.params.hasReadyLine then (s.sampled.finish .ok).setReady (readyFlag s.params s.rdyLevel) else s.raise .noReady :=
  argBlind_ite (fun _ _ => rfl) (fun _ _ => rfl) (argBlind_finish .noReady)

/-- No command's step writes ARG (R24). -/
theorem ExecStep.arg {i : Instr} {s t : State} (h : ExecStep i s t) : t.arg = s.arg := by
  cases h with
  | transaction kind tx _ _ _ _ eq => rw [eq, (transact_registers kind tx s).2.1]
  | commit _ _ frame => exact frame.arg

/-- A command works on the latched operand: with another word in ARG its step is the same (R42, R83). -/
theorem exec_setArg {i : Instr} {s t : State} (v : Word) (h : exec i s = .next t) :
    exec i (s.setArg v) = .next (t.setArg v) := by
  cases i with
  | configure cfg =>
    cases h
    exact congrArg _ (argBlind_twoTransactions _ _ _ _ (fun _ _ => rfl) (argBlind_configureCommits _) v s)
  | readRaw | measure =>
    cases h
    exact congrArg _ (argBlind_guardedReads (fun _ _ => rfl) v s)
  | rwHalf | xfer | writeReg | readReg =>
    cases h
    exact congrArg _ (argBlind_oneTransaction _ _ (fun _ _ => rfl) v s)
  | isReady =>
    cases h
    exact congrArg _ (argBlind_isReady v s)
  | decode | lookup | softReset =>
    cases h
    rfl

end Sys2Proof.Machine
end

section
/-! What the host sees of a running command, and what it can change of it. -/

open Sys2Proof Sys2Proof.Machine

/-- Settles O17: a command that goes on was running with BUSY 1 or has just been issued, and neither writes a result. -/
theorem resultsVisibleOnlyAtCommit : Obligations.ResultsVisibleOnlyAtCommit := by
  unfold Obligations.ResultsVisibleOnlyAtCommit
  intro s t hinv h hp
  cases step_leavesRunning h hp with
  | keeps running status results latched =>
    have hbusy : s.status.busy = true := hinv.busy.mpr running
    simp only [State.latched, Prod.mk.injEq] at latched
    obtain ⟨cmd, w, -⟩ := latched
    have hword : s.cmd = s.opl.w := (hinv.running.resolve_left running).2
    exact ⟨by rw [status, ← hbusy], by rw [cmd, w, hword], fun r => Reg.read_of_results results⟩
  | issues free status results word => exact ⟨status, word, fun r => Reg.read_of_results results⟩

/-- Settles O23: with a command running BUSY is 1, so no step issues another, and no command's meaning mentions ARG. -/
theorem runningCommandLatched : Obligations.RunningCommandLatched := by
  unfold Obligations.RunningCommandLatched
  refine ⟨fun s t hinv h hs hp => ?_, fun i s t v h => ⟨(exec_step h).arg, exec_setArg v h⟩⟩
  cases step_leavesRunning h hp with
  | keeps running status results latched =>
    simp only [State.latched, Prod.mk.injEq] at latched
    obtain ⟨cmd, w, arg⟩ := latched
    exact ⟨w, arg, cmd⟩
  | issues free => exact absurd (hinv.busy.mpr hs) (by simp [free])

end

section
/-! The wire of a transaction of two sent and two answered bytes, cycle by cycle (R71, R110 to R116). -/

namespace Sys2Proof.Machine

open Sys2Proof

/-- Bit `k` of two bytes in wire order (R71). -/
def pairBit (b0 b1 : Byte) (k : Nat) : Bool := if k < 8 then b0.getLsbD (7 - k) else b1.getLsbD (15 - k)

@[simp] theorem pairBit_zero (k : Nat) : pairBit 0x00#8 0x00#8 k = false := by
  simp [pairBit]

@[simp] theorem byteBits_length (b : Byte) : (byteBits b).length = 8 := rfl

/-- The bits of a byte, the most significant at place 0 (R71). -/
theorem byteBits_getElem? (b : Byte) {k : Nat} (h : k < 8) : (byteBits b)[k]? = some (b.getLsbD (7 - k)) := by
  match k, h with
  | 0, _ | 1, _ | 2, _ | 3, _ | 4, _ | 5, _ | 6, _ | 7, _ => rfl

theorem pairBits_getElem? (b0 b1 : Byte) (rest : List Byte) {k : Nat} (h : k < 16) :
    ((b0 :: b1 :: rest).flatMap byteBits)[k]? = some (pairBit b0 b1 k) := by
  simp only [List.flatMap_cons, pairBit]
  split
  · rw [List.getElem?_append_left (by simpa), byteBits_getElem? b0 ‹_›]
  · rw [List.getElem?_append_right (by simp; omega), List.getElem?_append_left (by simp; omega), byteBits_length,
      byteBits_getElem? b1 (by omega), show 7 - (k - 8) = 15 - k by omega]

theorem bits_getElem?_after_pair (b0 b1 : Byte) (rest : List Byte) (k : Nat) :
    ((b0 :: b1 :: rest).flatMap byteBits)[k + 16]? = (rest.flatMap byteBits)[k]? := by
  simp only [List.flatMap_cons]
  rw [List.getElem?_append_right (by simp), List.getElem?_append_right (by simp)]
  simp

section Cycles

variable (p : Params) (draw : Nat) (b0 b1 r0 r1 : Byte) {k : Nat} (hk : k < 16)
include hk

/-- In the first 16 cycles of every kind MOSI carries the sent bytes; on MISO are two bytes, the answered ones in FULL (R111 to
R113). -/
theorem transaction_firstCycles (kind : TxKind) : ∃ m0 m1 : Byte, (kind = .full → m0 = r0 ∧ m1 = r1) ∧
    (transactionLevels p draw kind [b0, b1] ⟨r0, r1⟩)[2 * k + 1]? =
      some ⟨false, false, pairBit b0 b1 k, pairBit m0 m1 k⟩ ∧
    (transactionLevels p draw kind [b0, b1] ⟨r0, r1⟩)[2 * k + 2]? =
      some ⟨false, true, pairBit b0 b1 k, pairBit m0 m1 k⟩ := by
  have hcycle (m0 m1 : Byte) (sent answered : List Byte) (before after : Bool) :=
    bracket_cycle (mosiIdle := p.mosiIdle) (before := before) (after := after) (pairBits_getElem? b0 b1 sent hk)
      (pairBits_getElem? m0 m1 answered hk)
  cases kind with
  | full => exact ⟨r0, r1, fun _ => ⟨rfl, rfl⟩, hcycle r0 r1 [] [] _ _⟩
  | half => exact ⟨_, _, by simp, hcycle _ _ [0x00#8, 0x00#8] [r0, r1] _ _⟩
  | write => exact ⟨_, _, by simp, hcycle _ _ [] [] _ _⟩

/-- In the last 16 cycles of HALF, its read phase, MOSI is 0 and MISO carries the answered bytes (R112). -/
theorem transaction_readCycles :
    (transactionLevels p draw .half [b0, b1] ⟨r0, r1⟩)[2 * k + 33]? = some ⟨false, false, false, pairBit r0 r1 k⟩ ∧
    (transactionLevels p draw .half [b0, b1] ⟨r0, r1⟩)[2 * k + 34]? = some ⟨false, true, false, pairBit r0 r1 k⟩ := by
  have ho : ((mosiBytes .half [b0, b1]).flatMap byteBits)[k + 16]? = some false := by
    rw [mosiBytes, List.cons_append, List.cons_append, List.nil_append, bits_getElem?_after_pair,
      pairBits_getElem? _ _ _ hk, pairBit_zero]
  have hi (d : Rx) : ((misoBytes .half d ⟨r0, r1⟩).flatMap byteBits)[k + 16]? = some (pairBit r0 r1 k) := by
    rw [misoBytes, bits_getElem?_after_pair, pairBits_getElem? _ _ _ hk]
  rw [show 2 * k + 33 = 2 * (k + 16) + 1 by omega, show 2 * k + 34 = 2 * (k + 16) + 2 by omega]
  exact bracket_cycle ho (hi _)

/-- The answered bytes stand on MISO in FULL's cycles and in HALF's read phase (R111, R112). -/
theorem transaction_answerCycles {kind : TxKind} (hw : kind ≠ .write) : ∃ o,
    (transactionLevels p draw kind [b0, b1] ⟨r0, r1⟩)[2 * k + (if kind = .half then 33 else 1)]? =
      some ⟨false, false, o, pairBit r0 r1 k⟩ ∧
    (transactionLevels p draw kind [b0, b1] ⟨r0, r1⟩)[2 * k + (if kind = .half then 34 else 2)]? =
      some ⟨false, true, o, pairBit r0 r1 k⟩ := by
  cases kind with
  | full =>
    obtain ⟨m0, m1, hm, hcycle⟩ := transaction_firstCycles p draw b0 b1 r0 r1 hk .full
    obtain ⟨rfl, rfl⟩ := hm rfl
    exact ⟨_, hcycle⟩
  | half => exact ⟨false, transaction_readCycles p draw b0 b1 r0 r1 hk⟩
  | write => exact absurd rfl hw

end Cycles

/-- The bits that arrive in a transaction: 16, and 32 in HALF (R281). -/
theorem misoBits_length (kind : TxKind) (d rx : Rx) :
    ((misoBytes kind d rx).flatMap byteBits).length = if kind = .half then 32 else 16 := by
  cases kind <;> rfl

theorem bracket_getLast? (mosiIdle before after : Bool) (mosi miso : List Bool) :
    (bracket mosiIdle before after mosi miso).getLast? = some ⟨true, true, mosiIdle, after⟩ := by
  rw [bracket, ← List.cons_append, List.getLast?_concat]

/-- The wire of a completed transaction's event is the transaction's: what is not recorded of a WRITE's answer is not on it. -/
theorem eventLevels_bytes (p : Params) (draw : Nat) (kind : TxKind) (tx : List Byte) (r0 r1 : Byte) :
    eventLevels p draw ⟨kind, tx, .bytes (if kind = .write then [] else [r0, r1])⟩ =
      transactionLevels p draw kind tx ⟨r0, r1⟩ := by
  cases kind <;> rfl

/-- A HALF that fails stops within its write phase, or when that is over (R112). -/
theorem failedLevels_half (p : Params) (draw : Nat) (tx : List Byte) :
    failPhase .half draw = .writing ∧ (failedLevels p draw .half tx).length ≤ 34 ∨
      failPhase .half draw = .reading ∧ 34 ≤ (failedLevels p draw .half tx).length := by
  have hpart : Config.failedAfter draw % 33 < 33 := Nat.mod_lt _ (by decide)
  rw [failedLevels, brokenOff_length, transactionLevels, bracket_length, misoBits_length, failPhase, stopPhase]
  split
  · exact .inr ⟨rfl, by simp only [levelsBefore, if_true]; omega⟩
  · exact .inl ⟨rfl, by simp only [levelsBefore]; omega⟩

end Sys2Proof.Machine
end

section
/-! The wire of one bracket. -/

open Sys2Proof Sys2Proof.Machine

/-- Settles O60: the wire is a bracket of the sent and the answered bits, and a failed one is a beginning of such a bracket. -/
theorem wireBracket : Obligations.WireBracket := by
  unfold Obligations.WireBracket
  rintro p draw kind b0 b1 r0 r1 _ rfl
  refine ⟨eventLevels_bytes p draw kind [b0, b1] r0 r1, ?edges, ?length, ⟨_, rfl⟩, ?cs, ⟨_, bracket_getLast? ..⟩,
    fun k hk => ?sent, ?zeros, fun hw k hk => transaction_answerCycles p draw b0 b1 r0 r1 hk hw,
    captured_transaction p draw kind [b0, b1] ⟨r0, r1⟩, ⟨_, brokenOff_getLast ..⟩, failedLevels_cs p draw kind [b0, b1],
    ⟨_, _, brokenOff_prefix ..⟩, ?phase⟩
  case edges => rw [transactionLevels, risingEdges_bracket, misoBits_length]
  case length =>
    rw [transactionLevels, bracket_length, misoBits_length]
    split <;> rfl
  case cs => exact bracket_cs _ _ _ _ _
  case sent =>
    obtain ⟨m0, m1, -, hcycle⟩ := transaction_firstCycles p draw b0 b1 r0 r1 hk kind
    exact ⟨_, hcycle⟩
  case zeros =>
    rintro rfl k hk
    exact ⟨_, transaction_readCycles p draw b0 b1 r0 r1 hk⟩
  case phase =>
    rintro rfl
    exact failedLevels_half p draw [b0, b1]

end

section
/-! The fields of a command word, what the decoder makes of them, and what a match and mask row asks of them (R90, R93, R96). -/

namespace Sys2Proof

/-- A word is its four fields (R90). -/
theorem word_eq_iff {x y : Word} :
    x = y ↔ opcOf x = opcOf y ∧ rsvOf x = rsvOf y ∧ aOf x = aOf y ∧ vOf x = vOf y := by
  have fields (w : Word) : opcOf w ++ rsvOf w ++ aOf w ++ vOf w = w := by
    simp only [opcOf, rsvOf, aOf, vOf, BitVec.extractLsb'_append_extractLsb'_eq_extractLsb', BitVec.extractLsb'_eq_self]
  constructor
  · rintro rfl
    exact ⟨rfl, rfl, rfl, rfl⟩
  · rintro ⟨opc, rsv, a, v⟩
    rw [← fields x, ← fields y, opc, rsv, a, v]

@[simp] theorem opcOf_and (x y : Word) : opcOf (x &&& y) = opcOf x &&& opcOf y := BitVec.extractLsb'_and
@[simp] theorem rsvOf_and (x y : Word) : rsvOf (x &&& y) = rsvOf x &&& rsvOf y := BitVec.extractLsb'_and
@[simp] theorem aOf_and (x y : Word) : aOf (x &&& y) = aOf x &&& aOf y := BitVec.extractLsb'_and
@[simp] theorem vOf_and (x y : Word) : vOf (x &&& y) = vOf x &&& vOf y := BitVec.extractLsb'_and

/-- WIRE lies in V (R94). -/
theorem extractLsb'_vOf (w : Word) {start len : Nat} (h : start + len ≤ 8) :
    (vOf w).extractLsb' start len = w.extractLsb' start len := by
  rw [vOf, BitVec.extractLsb'_extractLsb'_of_le h]

/-- What R96 asks of the A and V of a word with opcode `n`, besides zeros in RSV. -/
structure LegalFields (n : Nat) (a v : Byte) : Prop where
  opcode : n ≠ 0 ∧ n < 0xC
  zeroA : n ∈ [1, 2, 3, 4, 5, 6, 11] → a = 0#8
  zeroV : n ∈ [2, 3, 4, 5, 6, 8, 10, 11] → v = 0#8
  config : n = 1 → v.extractLsb' 3 2 ≠ 0b11#2 ∧ v.extractLsb' 1 2 = 0#2
  index : n ∈ [9, 10] → a.msb = false

theorem legalFields_iff (n : Nat) (a v : Byte) : LegalFields n a v ↔
    (n ≠ 0 ∧ n < 0xC) ∧ (n ∈ [1, 2, 3, 4, 5, 6, 11] → a = 0#8) ∧ (n ∈ [2, 3, 4, 5, 6, 8, 10, 11] → v = 0#8) ∧
      (n = 1 → v.extractLsb' 3 2 ≠ 0b11#2 ∧ v.extractLsb' 1 2 = 0#2) ∧ (n ∈ [9, 10] → a.msb = false) :=
  ⟨fun ⟨opcode, zeroA, zeroV, config, index⟩ => ⟨opcode, zeroA, zeroV, config, index⟩,
    fun ⟨opcode, zeroA, zeroV, config, index⟩ => ⟨opcode, zeroA, zeroV, config, index⟩⟩

/-! The decoder. -/

/-- What the decoder makes of word `w`: a command with the word's opcode, A and V, all of them legal, or illegal. -/
inductive Decodes (w : Word) : Decoded → Prop where
  | command (i : Instr) (opc : i.opc = opcOf w) (a : i.aField = aOf w) (v : i.vField = vOf w) (rsv : rsvOf w = 0#12)
      (legal : LegalFields (opcOf w).toNat (aOf w) (vOf w)) : Decodes w (.command i)
  | illegal (why : Illegal) (not_legal : rsvOf w = 0#12 → ¬LegalFields (opcOf w).toNat (aOf w) (vOf w)) :
      Decodes w (.illegal why)

/-- The bits of a wire count are those it is decoded from (R94). -/
theorem Wire.bits_of_wireOf {x : BitVec 2} {wire : Wire} (h : wireOf x = some wire) : wire.bits = x := by
  unfold wireOf at h
  split at h
  · cases h; rfl
  · cases h; rfl
  · cases h; rfl
  · cases h

theorem wireOf_eq_none_iff {x : BitVec 2} : wireOf x = none ↔ x = 0b11#2 := by
  revert x
  decide

@[simp] theorem Filter.bit_ite (b : Bool) : Filter.bit (if b then .hz50 else .hz60) = b := by cases b <;> rfl

/-- V is the bits of the configuration decoded from it (R94, R141). -/
theorem byte_eq_fields : ∀ v : Byte, BitVec.ofBool (v.getLsbD 7) ++ BitVec.ofBool (v.getLsbD 6) ++
    BitVec.ofBool (v.getLsbD 5) ++ v.extractLsb' 3 2 ++ v.extractLsb' 1 2 ++ BitVec.ofBool (v.getLsbD 0) = v := by
  decide

/-- A command whose opcode has the number of the word's has the word's opcode. -/
theorem opc_eq_opcOf {i : Instr} {w : Word} {n : Nat} (hi : i.opc.toNat = n) (hn : (opcOf w).toNat = n) : i.opc = opcOf w :=
  BitVec.eq_of_toNat_eq (hi.trans hn.symm)

section Rows

variable {w : Word} (hr : rsvOf w = 0#12)
include hr

/-- The row of CONFIGURE (R94, R96 items 3 and 4). -/
theorem decodes_configure (hn : (opcOf w).toNat = 1) (ha : aOf w = 0#8) : Decodes w (decodeConfigure (vOf w)) := by
  unfold decodeConfigure
  split
  · next hne => exact .illegal _ fun _ h => hne (h.config hn).2
  · next hne =>
    have hz : (vOf w).extractLsb' 1 2 = 0#2 := Classical.not_not.mp hne
    split
    · next hw => exact .illegal _ fun _ h => (h.config hn).1 (wireOf_eq_none_iff.mp hw)
    · next wire hw =>
      have hwire : (vOf w).extractLsb' 3 2 ≠ 0b11#2 := fun h => by simp [wireOf_eq_none_iff.mpr h] at hw
      refine .command _ (opc_eq_opcOf rfl hn) ha.symm ?_ hr (by simp [legalFields_iff, hn, ha, hz, hwire])
      simp only [Instr.vField, Cfg.vField, Filter.bit_ite, Wire.bits_of_wireOf hw, ← hz, byte_eq_fields]

/-- A row that marks both A and V as zero (R92, R96 item 3). -/
theorem decodes_bare {i : Instr} {n : Nat} (hn : (opcOf w).toNat = n) (hi : i.opc.toNat = n)
    (hrow : n ∈ [2, 3, 4, 5, 6, 11]) (ha : i.aField = 0#8) (hv : i.vField = 0#8) : Decodes w (bare w i) := by
  have hrows : ∀ n ∈ [2, 3, 4, 5, 6, 11],
      n ∈ [1, 2, 3, 4, 5, 6, 11] ∧ n ∈ [2, 3, 4, 5, 6, 8, 10, 11] ∧ n ≠ 1 ∧ n ∉ [9, 10] ∧ n ≠ 0 ∧ n < 0xC := by decide
  obtain ⟨inA, inV, not_config, not_index, opcode⟩ := hrows n hrow
  subst hn
  unfold bare
  split
  · next hne => exact .illegal _ fun _ h => hne (h.zeroA inA)
  · next ha0 =>
    split
    · next hne => exact .illegal _ fun _ h => hne (h.zeroV inV)
    · next hv0 =>
      rw [ne_eq, Classical.not_not] at ha0 hv0
      exact .command i (opc_eq_opcOf hi rfl) (ha.trans ha0.symm) (hv.trans hv0.symm) hr
        ⟨opcode, fun _ => ha0, fun _ => hv0, fun h => absurd h not_config, fun h => absurd h not_index⟩

end Rows

/-- The inversion of the decoder (R92, R96, R98). -/
theorem decodeWord_decodes (w : Word) : Decodes w (decodeWord w) := by
  unfold decodeWord
  split
  · next hne => exact .illegal _ fun hr => absurd hr hne
  next hne =>
  have hr : rsvOf w = 0#12 := Classical.not_not.mp hne
  split
  case h_1 hn =>
    split
    · next hne => exact .illegal _ fun _ h => hne (h.zeroA (by simp [hn]))
    · next ha => exact decodes_configure hr hn (Classical.not_not.mp ha)
  case h_2 hn | h_3 hn | h_4 hn | h_5 hn | h_6 hn | h_11 hn => exact decodes_bare hr hn rfl (by decide) rfl rfl
  case h_7 hn => exact .command _ (opc_eq_opcOf rfl hn) rfl rfl hr (by simp [legalFields_iff, hn])
  case h_8 hn =>
    split
    · next hne => exact .illegal _ fun _ h => hne (h.zeroV (by simp [hn]))
    · next hv =>
      rw [ne_eq, Classical.not_not] at hv
      exact .command _ (opc_eq_opcOf rfl hn) rfl hv.symm hr (by simp [legalFields_iff, hn, hv])
  case h_9 hn =>
    split
    · next hmsb => exact .illegal _ fun _ h => by simp [h.index (by simp [hn])] at hmsb
    · next hmsb => exact .command _ (opc_eq_opcOf rfl hn) rfl rfl hr (by simp [legalFields_iff, hn, hmsb])
  case h_10 hn =>
    split
    · next hmsb => exact .illegal _ fun _ h => by simp [h.index (by simp [hn])] at hmsb
    next hmsb =>
    split
    · next hne => exact .illegal _ fun _ h => hne (h.zeroV (by simp [hn]))
    · next hv =>
      rw [ne_eq, Classical.not_not] at hv
      exact .command _ (opc_eq_opcOf rfl hn) rfl hv.symm hr (by simp [legalFields_iff, hn, hmsb, hv])
  case h_12 =>
    refine .illegal _ fun _ h => ?_
    have hopcode := h.opcode
    grind

/-- A word that decodes to a command has legal fields, which are the command's (R92, R96). -/
theorem fields_of_command {w : Word} {i : Instr} (h : decodeWord w = .command i) :
    i.opc = opcOf w ∧ i.aField = aOf w ∧ i.vField = vOf w ∧ rsvOf w = 0#12 ∧
      LegalFields (opcOf w).toNat (aOf w) (vOf w) := by
  cases h ▸ decodeWord_decodes w with
  | command _ opc a v rsv legal => exact ⟨opc, a, v, rsv, legal⟩

/-- A word with legal fields decodes to a command (R98). -/
theorem exists_command {w : Word} (hr : rsvOf w = 0#12) (hl : LegalFields (opcOf w).toNat (aOf w) (vOf w)) :
    ∃ i, decodeWord w = .command i := by
  cases hd : decodeWord w with
  | command i => exact ⟨i, rfl⟩
  | illegal why =>
    cases hd ▸ decodeWord_decodes w with
    | illegal _ not_legal => exact absurd hl (not_legal hr)

/-- A word is illegal exactly when its fields are not legal (R96, R98). -/
theorem illegal_iff (w : Word) : (∃ why, decodeWord w = .illegal why) ↔
    ¬(rsvOf w = 0#12 ∧ LegalFields (opcOf w).toNat (aOf w) (vOf w)) := by
  constructor
  · rintro ⟨why, hd⟩ ⟨hr, hl⟩
    obtain ⟨i, hi⟩ := exists_command hr hl
    simp [hd] at hi
  · intro hnot
    cases hd : decodeWord w with
    | illegal why => exact ⟨why, rfl⟩
    | command i =>
      obtain ⟨-, -, -, hlegal⟩ := fields_of_command hd
      exact absurd hlegal hnot

/-! The match and mask rows. -/

/-- Every row asks for its opcode and for zeros elsewhere, and its mask covers OPC and RSV whole (R93). -/
theorem row_shape : ∀ row ∈ opcodeRows,
    row.value = cmdWord row.opc 0x00#8 0x00#8 ∧ opcOf row.mask = 0xF#4 ∧ rsvOf row.mask = 0xFFF#12 := by decide

/-- A row's match, field by field (R93). -/
theorem and_mask_eq_value_iff {row : OpcodeRow} (h : row ∈ opcodeRows) (w : Word) : w &&& row.mask = row.value ↔
    opcOf w = row.opc ∧ rsvOf w = 0#12 ∧ aOf w &&& aOf row.mask = 0x00#8 ∧ vOf w &&& vOf row.mask = 0x00#8 := by
  obtain ⟨hvalue, hopc, hrsv⟩ := row_shape row h
  have opc_mask : ∀ x : BitVec 4, x &&& 0xF#4 = x := fun x => BitVec.and_allOnes
  have rsv_mask : ∀ x : BitVec 12, x &&& 0xFFF#12 = x := fun x => BitVec.and_allOnes
  simp [word_eq_iff, hvalue, hopc, hrsv, opc_mask, rsv_mask]

/-- The mask of WRITE_REG and READ_REG on A (R93). -/
theorem and_indexMask_eq_zero_iff : ∀ a : Byte, a &&& 0x80#8 = 0x00#8 ↔ a.msb = false := by decide

/-- The mask of CONFIGURE on V (R93). -/
theorem and_configMask_eq_zero_iff : ∀ v : Byte, v &&& 0x06#8 = 0x00#8 ↔ v.extractLsb' 1 2 = 0b00#2 := by decide

theorem and_fullMask (b : Byte) : b &&& 0xFF#8 = b := BitVec.and_allOnes

/-- A row's masks on A and V, and the condition on WIRE, ask what is legal for its opcode (R93, R96). -/
theorem masks_iff_legalFields {row : OpcodeRow} (h : row ∈ opcodeRows) (a v : Byte) :
    (a &&& aOf row.mask = 0x00#8 ∧ v &&& vOf row.mask = 0x00#8 ∧ (row.opc = 0x1#4 → v.extractLsb' 3 2 ≠ 0b11#2)) ↔
      LegalFields row.opc.toNat a v := by
  simp only [opcodeRows, List.cons_append, List.nil_append, List.mem_cons, List.not_mem_nil, or_false] at h
  rcases h with rfl | rfl | rfl | rfl | rfl | rfl | rfl | rfl | rfl | rfl | rfl <;>
    simp [legalFields_iff, aOf, vOf, and_fullMask, and_indexMask_eq_zero_iff, and_configMask_eq_zero_iff, and_comm]

/-- A word is a row's command exactly when it has the row's opcode and legal fields (R93, R96). -/
theorem row_matches_iff {row : OpcodeRow} (h : row ∈ opcodeRows) (w : Word) :
    (w &&& row.mask = row.value ∧ (row.opc = 0x1#4 → w.extractLsb' 3 2 ≠ 0b11#2)) ↔
      opcOf w = row.opc ∧ rsvOf w = 0#12 ∧ LegalFields row.opc.toNat (aOf w) (vOf w) := by
  rw [and_mask_eq_value_iff h, ← masks_iff_legalFields h, extractLsb'_vOf w (by decide)]
  simp only [and_assoc]

/-- There is a row for each legal opcode (R93). -/
theorem exists_row {o : BitVec 4} {a v : Byte} (h : LegalFields o.toNat a v) : ∃ row ∈ opcodeRows, row.opc = o := by
  have hrows : ∀ o : BitVec 4, o.toNat ≠ 0 ∧ o.toNat < 0xC → ∃ row ∈ opcodeRows, row.opc = o := by decide
  exact hrows o h.opcode

/-- No two rows have the same opcode (R93). -/
theorem row_eq_of_opc_eq : ∀ r ∈ opcodeRows, ∀ q ∈ opcodeRows, r.opc = q.opc → r = q := by decide

end Sys2Proof
end

section
/-! The loops of the host (R101): what the STATUS word answers to them, and the host's turn in one. -/

namespace Sys2Proof.Machine

open Sys2Proof

theorem ErrCode.code_eq_zero_iff (e : ErrCode) : e.code = 0x0#4 ↔ e = .ok := by
  cases e <;> decide

/-- WAIT ends on a STATUS word with BUSY 0. -/
@[simp] theorem waitDone_statusWord (st : Status) : waitDone (.data st.word) = !st.busy := by
  obtain ⟨busy, -⟩ := statusWord_fields st
  rw [waitDone, busy]

/-- POLL_READY ends on a STATUS word with READY 1 or an ERR that is not OK. -/
theorem pollDone_statusWord (st : Status) : pollDone (.data st.word) = true ↔ st.ready = true ∨ st.err ≠ .ok := by
  obtain ⟨-, -, -, err, -, -, ready, -⟩ := statusWord_fields st
  simp only [pollDone, ready, err, Bool.or_eq_true, bne_iff_ne, ne_eq, ErrCode.code_eq_zero_iff]

/-- Out of reset the loops' read of STATUS is answered with its word. -/
theorem statusAnswer_of_not_reset {s : State} (h : s.rst = false) : statusAnswer s = .data s.status.word :=
  readAnswer_register s .status h

section Turn

variable {s : State} {rest : List Turn} {prog : List HostOp}
  (hl : s.params.legal = true) (hn : s.held = none) (ht : s.turns = .host :: rest)
include hl hn ht

/-- The host's turn with nothing held is its program's next operation (R100). -/
theorem step_hostOperation {op : HostOp} (hp : s.program = op :: prog) :
    step s = hostOperation op prog { s with turns := rest } := by
  simp only [step, agentStep, hl, if_true, ht, hostTurn, hn, hp]

/-- POLL_READY begins with a write of IS_READY's word to CMD (R101). -/
theorem step_pollReady (hp : s.program = .pollReady :: prog) :
    step s = .next (writeWindow Reg.cmd.offset 4 0x20000000#32
      { s with turns := rest, program := .wait :: .pollCheck :: prog }) := by
  rw [step_hostOperation hl hn ht hp]
  rfl

end Turn

end Sys2Proof.Machine
end

section
/-! The decoder and the match and mask rows; words that are no command; the loops of the host. -/

open Sys2Proof Sys2Proof.Machine

/-- Settles O4: both sides say that the word has the row's opcode, zeros in RSV and legal fields. -/
theorem decodeMatchesOpcodeRows : Obligations.DecodeMatchesOpcodeRows := by
  unfold Obligations.DecodeMatchesOpcodeRows
  refine ⟨fun w row hrow => ?_, fun w i hd => ?_, fun w r q hr hq hwr hwq => ?_⟩
  · rw [row_matches_iff hrow]
    constructor
    · rintro ⟨i, hd, hopc, -, -⟩
      obtain ⟨opc, -, -, rsv, legal⟩ := fields_of_command hd
      have hw : opcOf w = row.opc := opc.symm.trans hopc
      exact ⟨hw, rsv, hw ▸ legal⟩
    · rintro ⟨hw, rsv, legal⟩
      obtain ⟨i, hd⟩ := exists_command rsv (hw ▸ legal)
      obtain ⟨opc, a, v, -, -⟩ := fields_of_command hd
      exact ⟨i, hd, opc.trans hw, a, v⟩
  · obtain ⟨opc, -, -, -, legal⟩ := fields_of_command hd
    exact opc ▸ exists_row legal
  · have hits_opc {row : OpcodeRow} (hrow : row ∈ opcodeRows) (hw : row.hits w = true) : opcOf w = row.opc :=
      ((and_mask_eq_value_iff hrow w).mp (by simpa [OpcodeRow.hits] using hw)).1
    exact row_eq_of_opc_eq r hr q hq ((hits_opc hr hwr).symm.trans (hits_opc hq hwq))

/-- Settles O5: the five conditions are the ways in which the fields of a word can fail to be legal; an illegal word's command
has the one step that commits ILLEGAL. -/
theorem illegalWordsEndIllegal : Obligations.IllegalWordsEndIllegal := by
  unfold Obligations.IllegalWordsEndIllegal
  refine ⟨fun w => ?_, fun w why s hd hr hx => ?_⟩
  · have hzero : opcOf w = 0x0#4 ↔ (opcOf w).toNat = 0 := BitVec.toNat_inj.symm
    have hone : opcOf w = 0x1#4 ↔ (opcOf w).toNat = 1 := BitVec.toNat_inj.symm
    rw [illegal_iff, legalFields_iff, extractLsb'_vOf w (by decide), extractLsb'_vOf w (by decide), and_left_comm]
    simp only [Classical.not_and_iff_not_or_not, Classical.not_imp, ne_eq, Classical.not_not, Nat.not_lt,
      Bool.not_eq_false, hzero, hone]
  · rw [commandRun_of_illegal hr hx hd]
    simp [State.finish, State.issue, stickyAfter, ErrCode.isError]

/-- Settles O32: each operation of a loop is one access, to STATUS or to CMD, and the word that STATUS is answered with decides
what is left of the program. -/
theorem hostLoopsRepeat : Obligations.HostLoopsRepeat := by
  unfold Obligations.HostLoopsRepeat
  intro s rest prog hl hr hn ht
  have hstatus : statusAnswer { s with turns := rest } = .data s.status.word := statusAnswer_of_not_reset hr
  refine ⟨fun hp => ?wait, fun hp hb => ?issued, fun hp hb => ?held, fun hp => ?check⟩
  case wait =>
    rw [step_hostOperation hl hn ht hp, hostOperation, hstatus, waitDone_statusWord, hp]
    cases s.status.busy <;> rfl
  case issued =>
    refine ⟨_, (step_pollReady hl hn ht hp).trans (congrArg _ (writeWindow_cmd_free ?_ ?_ _)), rfl, rfl, rfl, rfl, rfl⟩
    · exact hr
    · exact hb
  case held =>
    rw [step_pollReady hl hn ht hp, writeWindow_cmd_busy]
    · exact hr
    · exact hb
  case check =>
    rw [step_hostOperation hl hn ht hp, hostOperation, hstatus]
    simp only [pollDone_statusWord]
    rfl

end

section
/-! One bus transaction: the whole state it leaves (R110 to R115). -/

namespace Sys2Proof.Machine

open Sys2Proof Sys2Proof.Certificates

/-- A completed transaction is its event on the bus, its bytes in OPL and PHASE one further (R21, R42, R111 to R113). -/
theorem txDone_eq_afterBus (s : State) (kind : TxKind) (tx : List Byte) (rx : Rx) :
    s.txDone kind tx rx = { afterBus s [⟨kind, tx, .bytes (received kind rx)⟩] with
      opl := s.opl.store kind s.phase.step rx
      phase := s.phase.advance } := by
  simp [State.txDone, State.closeBracket, State.drew, afterBus]

/-- A failed transaction is its event on the bus and a mark in OPL (R115). -/
theorem txFail_eq_afterBus (s : State) (kind : TxKind) (tx : List Byte) :
    s.txFail kind tx = { afterBus s [⟨kind, tx, .ioFail⟩] with opl := { s.opl with failed := true } } := by
  simp [State.txFail, State.closeBracket, State.drew, afterBus]

/-- Where the bytes of a transaction go in OPL: WRITE captures none, the first transaction's are `rx1` (R42, R113). -/
theorem Opl.store_eq (o : Opl) (kind : TxKind) (n : Nat) (rx : Rx) :
    o.store kind n rx = if kind = .write then o else if n = 0 then { o with rx1 := rx } else { o with rx2 := rx } := by
  cases kind <;> rfl

end Sys2Proof.Machine
end

section
/-! A command of one transaction, from its issue to its end (R118 to R128). -/

namespace Sys2Proof.Machine

open Sys2Proof Sys2Proof.Certificates

section TwoSteps

variable {i : Instr} {kind : TxKind} {tx : List Byte} {commit : State → State} {s : State}
  (hexec : ∀ u : State, exec i u = .next (oneTransaction kind tx commit u)) (hs : s.JustIssued i)

include hs in
/-- Right after its issue the command performs its transaction. -/
theorem oneTransaction_justIssued : oneTransaction kind tx commit s = s.transact kind tx := by
  simp [oneTransaction, hs.failed, hs.phase]

include hexec hs

/-- A transaction that completes is followed by the commit (R80). -/
theorem exec_transaction_done {r0 r1 : Byte} (ha : s.spiAnswer kind tx = .done r0 r1) :
    ∃ s1, exec i s = .next s1 ∧ exec i s1 = .next (commit (s.txDone kind tx ⟨r0, r1⟩)) := by
  refine ⟨s.txDone kind tx ⟨r0, r1⟩, ?_, ?_⟩
  · rw [hexec, oneTransaction_justIssued hs, transact_of_done ha]
  · rw [hexec]
    simp [oneTransaction, hs.failed, hs.phase]

/-- A transaction that fails is followed by the commit of the IO error (R115, R231). -/
theorem exec_transaction_failed (ha : s.spiAnswer kind tx = .ioFail) :
    ∃ s1, exec i s = .next s1 ∧ exec i s1 = .next { afterBus s [⟨kind, tx, .ioFail⟩] with
      opl := { s.opl with failed := true }
      status := { s.status with busy := false, err := .io, sticky := true }
      phase := .idle } := by
  refine ⟨s.txFail kind tx, ?_, ?_⟩
  · rw [hexec, oneTransaction_justIssued hs, transact_of_ioFail ha]
  · rw [hexec, txFail_eq_afterBus]
    simp [oneTransaction, State.finish, stickyAfter, ErrCode.isError, afterBus]

end TwoSteps

/-- A commit with OK leaves STICKY as it is (R80). -/
@[simp] theorem stickyAfter_ok (sticky : Bool) : stickyAfter sticky .ok = sticky := Bool.or_false sticky

/-- The commit of a command whose one transaction captured two bytes: RXD gets the second (R120, R122, R128). -/
theorem commitRxd_txDone {i : Instr} {s : State} (hs : s.JustIssued i) {kind : TxKind} (hk : kind ≠ .write) (tx : List Byte)
    (r0 r1 : Byte) :
    commitRxd (s.txDone kind tx ⟨r0, r1⟩) = { afterBus s [⟨kind, tx, .bytes [r0, r1]⟩] with
      rxd := r1
      opl := { s.opl with rx1 := ⟨r0, r1⟩ }
      status := { s.status with busy := false, err := .ok }
      phase := .idle } := by
  rw [txDone_eq_afterBus, received_eq, Opl.store_eq, if_neg hk, if_neg hk, hs.phase]
  simp [commitRxd, State.finish, afterBus]

/-- The commit of a command whose one transaction was a WRITE: no byte was captured and RXD stays (R113, R126). -/
theorem finish_txDone_write (s : State) (tx : List Byte) (rx : Rx) :
    (s.txDone .write tx rx).finish .ok = { afterBus s [⟨.write, tx, .bytes []⟩] with
      status := { s.status with busy := false, err := .ok }
      phase := .idle } := by
  rw [txDone_eq_afterBus]
  simp [State.finish, received, Opl.store, afterBus]

end Sys2Proof.Machine
end

section
/-! What the raw register commands leave alone (R126, R130, R131). -/

namespace Sys2Proof.Machine

open Sys2Proof

/-- What holds after an IO error's commit, after the transaction and after the commit holds after a one-transaction command's
step. -/
theorem oneTransaction_of_cases {kind : TxKind} {tx : List Byte} {commit : State → State} {s : State} {P : State → Prop}
    (hfail : P (s.finish .io)) (htransact : P (s.transact kind tx)) (hcommit : P (commit s)) :
    P (oneTransaction kind tx commit s) := by
  rcases oneTransaction_cases kind tx commit s with ⟨_, e⟩ | ⟨_, _, e⟩ | ⟨_, _, e⟩ <;> rw [e]
  · exact hfail
  · exact htransact
  · exact hcommit

/-- From `s` to `t` the protocol state, the registers but RXD and STATUS, and the flags of a reading have not changed. -/
structure KeepsProtocol (s t : State) : Prop where
  state : t.status.state = s.status.state
  config : t.cfgw = s.cfgw ∧ t.cfgrb = s.cfgrb
  reading : t.raw = s.raw ∧ t.ohms = s.ohms ∧ t.temp = s.temp
  flags : t.status.fault = s.status.fault ∧ t.status.oor = s.status.oor ∧ t.status.ready = s.status.ready
  inputs : t.arg = s.arg ∧ t.cmd = s.cmd

theorem keepsProtocol_finish (code : ErrCode) (s : State) : KeepsProtocol s (s.finish code) :=
  ⟨rfl, ⟨rfl, rfl⟩, ⟨rfl, rfl, rfl⟩, ⟨rfl, rfl, rfl⟩, ⟨rfl, rfl⟩⟩

theorem keepsProtocol_commitRxd (s : State) : KeepsProtocol s (commitRxd s) :=
  ⟨rfl, ⟨rfl, rfl⟩, ⟨rfl, rfl, rfl⟩, ⟨rfl, rfl, rfl⟩, ⟨rfl, rfl⟩⟩

theorem transact_rxd (kind : TxKind) (tx : List Byte) (s : State) : (s.transact kind tx).rxd = s.rxd := by
  rcases transact_cases kind tx s with ⟨_, _, _, e⟩ | ⟨_, e⟩ | ⟨_, e⟩ <;> rw [e] <;> rfl

theorem keepsProtocol_transact (kind : TxKind) (tx : List Byte) (s : State) : KeepsProtocol s (s.transact kind tx) := by
  obtain ⟨status, arg, results, latched⟩ := transact_registers kind tx s
  simp only [State.results, Prod.mk.injEq] at results
  simp only [State.latched, Prod.mk.injEq] at latched
  obtain ⟨-, raw, ohms, temp, cfgw, cfgrb, -⟩ := results
  obtain ⟨cmd, -⟩ := latched
  exact ⟨by rw [status], ⟨cfgw, cfgrb⟩, ⟨raw, ohms, temp⟩, by simp [status], arg, cmd⟩

/-- The step of a command that performs one transaction and commits its second byte to RXD. -/
theorem keepsProtocol_oneTransaction_commitRxd (kind : TxKind) (tx : List Byte) (s : State) :
    KeepsProtocol s (oneTransaction kind tx commitRxd s) :=
  oneTransaction_of_cases (keepsProtocol_finish .io s) (keepsProtocol_transact kind tx s) (keepsProtocol_commitRxd s)

/-- WRITE_REG's commit is the shared one, so its step leaves RXD alone too (R126). -/
theorem execWriteReg_keeps {idx v : Byte} {s t : State} (h : execWriteReg idx v s = .next t) :
    KeepsProtocol s t ∧ t.rxd = s.rxd := by
  cases h
  exact oneTransaction_of_cases (P := fun u => KeepsProtocol s u ∧ u.rxd = s.rxd) ⟨keepsProtocol_finish .io s, rfl⟩
    ⟨keepsProtocol_transact _ _ s, transact_rxd _ _ s⟩ ⟨keepsProtocol_finish .ok s, rfl⟩

end Sys2Proof.Machine
end

section
/-! A transaction in flight at a step of the machine: only reset touches it (R114). -/

namespace Sys2Proof.Machine

open Sys2Proof

/-- From `s` to `t` the transaction in flight, its command and a held CMD write are as they were. -/
structure KeepsFlight (s t : State) : Prop where
  bus : t.xf = s.xf ∧ t.cs = s.cs ∧ t.hist = s.hist
  status : t.status = s.status
  phase : t.phase = s.phase
  latch : t.cmd = s.cmd ∧ t.opl = s.opl
  held : ∀ w, s.held = some w → t.held = some w

/-- While BUSY is 1 the host neither issues a command nor completes a held write (R65). -/
theorem HostStep.keepsFlight {s t : State} (h : HostStep s t) (hb : s.status.busy = true) : KeepsFlight s t := by
  cases h with
  | waits eq | answered _ _ eq | writesArg _ _ _ eq =>
    subst eq
    exact ⟨⟨rfl, rfl, rfl⟩, rfl, rfl, ⟨rfl, rfl⟩, fun _ hw => hw⟩
  | holds _ _ _ _ free eq =>
    subst eq
    exact ⟨⟨rfl, rfl, rfl⟩, rfl, rfl, ⟨rfl, rfl⟩, fun _ hw => by simp [free] at hw⟩
  | issues _ _ _ free | completes _ _ free => simp [hb] at free

/-- With a transaction in flight the controller has no step, so only the host or reset can move (R114). -/
theorem step_keepsFlight {s t : State} (h : step s = .next t) (hb : s.status.busy = true) (hx : s.xf ≠ none) :
    (∃ rest, s.turns = .rst true :: rest) ∨ KeepsFlight s t := by
  have hwait : s.controllerReady ≠ true := fun hr => hx (s.controllerReady_iff.mp hr).2.2
  obtain ⟨-, h⟩ := step_cases h
  cases h with
  | reset level rest turn eq =>
    cases level with
    | true => exact .inl ⟨rest, turn⟩
    | false =>
      subst eq
      exact .inr ⟨⟨rfl, rfl, rfl⟩, rfl, rfl, ⟨rfl, rfl⟩, fun _ hw => hw⟩
  | command _ _ _ ready | illegal _ _ _ ready => exact absurd ready hwait
  | waits rest eq =>
    subst eq
    exact .inr ⟨⟨rfl, rfl, rfl⟩, rfl, rfl, ⟨rfl, rfl⟩, fun _ hw => hw⟩
  | host rest h =>
    obtain ⟨bus, status, phase, latch, held⟩ := h.keepsFlight hb
    exact .inr ⟨bus, status, phase, latch, held⟩

end Sys2Proof.Machine
end

section
/-! The SPI transactor: one bracket and its outcomes, the raw register commands, and a hang. -/

open Sys2Proof Sys2Proof.Machine Sys2Proof.Certificates

/-- Settles O33: the state a completed and the state a failed transaction leave, written out. -/
theorem transactionOutcomes : Obligations.TransactionOutcomes := by
  unfold Obligations.TransactionOutcomes
  intro s kind tx op n hp
  refine ⟨fun r0 r1 ha => ?_, fun ha => ?_⟩
  · rw [transact_of_done ha, txDone_eq_afterBus, received_eq, Opl.store_eq, hp]
    rfl
  · rw [transact_of_ioFail ha, txFail_eq_afterBus]

/-- Settles O34: RW_HALF is one HALF transaction and the commit of its second byte. -/
theorem rwHalfResult : Obligations.RwHalfResult := by
  unfold Obligations.RwHalfResult
  intro s a v r0 r1 hs
  have hexec : ∀ u, exec (.rwHalf a v) u = .next (oneTransaction .half [a, v] commitRxd u) := fun _ => rfl
  refine ⟨fun ha => ?_, exec_transaction_failed hexec hs⟩
  rw [← commitRxd_txDone hs (by decide)]
  exact exec_transaction_done hexec hs ha

/-- Settles O35: XFER and READ_REG are the same FULL transaction and the commit of its second byte. -/
theorem fullReadsResult : Obligations.FullReadsResult := by
  unfold Obligations.FullReadsResult
  intro s i a r0 r1 hi hs
  have hexec : ∀ u, exec i u = .next (oneTransaction .full [a, 0x00#8] commitRxd u) := by
    rcases hi with rfl | rfl <;> exact fun _ => rfl
  refine ⟨fun ha => ?_, exec_transaction_failed hexec hs⟩
  rw [← commitRxd_txDone hs (by decide)]
  exact exec_transaction_done hexec hs ha

/-- Settles O36: WRITE_REG is one WRITE transaction and the shared commit. -/
theorem writeRegHasNoResult : Obligations.WriteRegHasNoResult := by
  unfold Obligations.WriteRegHasNoResult
  intro s idx v hs
  have hexec : ∀ u, exec (.writeReg idx v) u = .next (oneTransaction .write [0x80#8 ||| idx, v] (State.finish .ok) u) :=
    fun _ => rfl
  refine ⟨fun r0 r1 ha => ?_, exec_transaction_failed hexec hs⟩
  rw [← finish_txDone_write s _ ⟨r0, r1⟩]
  exact exec_transaction_done hexec hs ha

/-- Settles O59: a transaction writes no register, and the commits of the four commands write RXD at most. -/
theorem rawCommandsKeepProtocol : Obligations.RawCommandsKeepProtocol := by
  unfold Obligations.RawCommandsKeepProtocol
  intro i s t a v hi h
  have hkeeps : KeepsProtocol s t ∧ (i = .writeReg a v → t.rxd = s.rxd) := by
    rcases hi with rfl | rfl | rfl | rfl
    case inr.inr.inl => exact (execWriteReg_keeps h).imp_right fun hrxd _ => hrxd
    all_goals
      cases h
      exact ⟨keepsProtocol_oneTransaction_commitRxd _ _ s, nofun⟩
  obtain ⟨⟨state, ⟨cfgw, cfgrb⟩, ⟨raw, ohms, temp⟩, ⟨fault, oor, ready⟩, arg, cmd⟩, hrxd⟩ := hkeeps
  exact ⟨state, cfgw, cfgrb, raw, ohms, temp, fault, oor, ready, arg, cmd, hrxd⟩

/-- Settles O22: a hang leaves CS 0 and the command where it was; with BUSY 1 and the controller waiting, only reset ends it. -/
theorem hangLastsUntilReset : Obligations.HangLastsUntilReset := by
  unfold Obligations.HangLastsUntilReset
  refine ⟨fun s kind tx ha => ?_, fun s t hinv hx h => ?_⟩
  · rw [transact_of_hang ha]
    exact ⟨⟨_, rfl⟩, rfl, rfl, rfl, rfl⟩
  · have hbusy : s.status.busy = true := hinv.busy.mpr (hinv.flight hx)
    have hcs : s.cs = false := Bool.eq_false_iff.mpr (hx ∘ hinv.cs.mp)
    refine (step_keepsFlight h hbusy hx).imp_right fun ⟨⟨xf, cs, hist⟩, status, phase, ⟨cmd, opl⟩, held⟩ => ?_
    exact ⟨xf, cs.trans hcs, status, status ▸ hbusy, phase, hist, cmd, opl, held⟩

end

section
/-! The fields of CONFIGURE's V, bit by bit (R94). -/

namespace Sys2Proof

/-- Where the fields of a configuration stand in CONFIGURE's V (R94). -/
theorem Cfg.vField_fields (c : Cfg) :
    c.vField.getLsbD 7 = c.vbias ∧ c.vField.getLsbD 6 = c.cmode ∧ c.vField.getLsbD 5 = c.oneShot ∧
      c.vField.extractLsb' 3 2 = c.wire.bits ∧ c.vField.getLsbD 0 = c.filter.bit := by
  simp (disch := decide) only [Cfg.vField, BitVec.getLsbD_append, BitVec.extractLsb'_append_eq_of_le,
    BitVec.extractLsb'_append_eq_of_add_le]
  simp

theorem getLsbD_vOf (w : Word) {n : Nat} (h : n < 8) : (vOf w).getLsbD n = w.getLsbD n := by
  simp [vOf, h]

theorem Filter.eq_ite_bit (f : Filter) : f = if f.bit then .hz50 else .hz60 := by cases f <;> rfl

theorem Filter.bit_eq_decide (f : Filter) : f.bit = decide (f = .hz50) := by cases f <;> rfl

end Sys2Proof
end

section
/-! The configuration byte, field by field (R142, R143). -/

namespace Sys2Proof.Machine

open Sys2Proof

/-- Where the fields of a configuration stand in its byte (R142). -/
theorem pack_fields (p : Params) (c : Cfg) :
    (pack p c).getLsbD 7 = c.vbias ∧ (pack p c).getLsbD 6 = c.cmode ∧ (pack p c).getLsbD 5 = c.oneShot ∧
      (pack p c).getLsbD 4 = wireBit p c.wire ∧ (pack p c).extractLsb' 1 3 = p.rsvd ∧
      (pack p c).getLsbD 0 = c.filter.bit := by
  simp (disch := decide) only [pack, BitVec.getLsbD_append, BitVec.extractLsb'_append_eq_of_le,
    BitVec.extractLsb'_append_eq_of_add_le]
  simp

theorem wireBit_eq_ite (p : Params) (w : Wire) :
    wireBit p w = if w = .three then p.wire3Bit else !p.wire3Bit := by cases w <;> rfl

/-- The wire count read from bit 4 has that bit (R142, R143). -/
@[simp] theorem wireBit_unpack (p : Params) (b : Byte) : wireBit p (unpack p b).wire = b.getLsbD 4 := by
  rw [unpack]
  cases b.getLsbD 4 <;> cases hp : p.wire3Bit <;> simp [wireBit, hp]

/-- A byte is its high half, its bits 3:1 and its bit 0. -/
theorem byte_eq_parts : ∀ b : Byte, b.extractLsb' 4 4 ++ b.extractLsb' 1 3 ++ BitVec.ofBool (b.getLsbD 0) = b := by
  decide

theorem highHalf_eq_bits : ∀ b : Byte, BitVec.ofBool (b.getLsbD 7) ++ BitVec.ofBool (b.getLsbD 6) ++
    BitVec.ofBool (b.getLsbD 5) ++ BitVec.ofBool (b.getLsbD 4) = b.extractLsb' 4 4 := by
  decide

/-- An unpacked byte packs to itself but for bits 3:1, which become `P_RSVD` (R144). -/
theorem pack_unpack (p : Params) (b : Byte) :
    pack p (unpack p b) = b.extractLsb' 4 4 ++ p.rsvd ++ BitVec.ofBool (b.getLsbD 0) := by
  rw [pack, wireBit_unpack, ← highHalf_eq_bits b]
  simp only [unpack, Filter.bit_ite]

/-- A packed configuration unpacks to itself but for two wires, which become four (R144). -/
theorem unpack_pack (p : Params) (c : Cfg) :
    unpack p (pack p c) = { c with wire := if c.wire = .two then .four else c.wire } := by
  obtain ⟨vbias, cmode, oneShot, wire, -, filter⟩ := pack_fields p c
  have hwire : (if wireBit p c.wire == p.wire3Bit then Wire.three else .four) =
      if c.wire = .two then .four else c.wire := by
    cases c.wire <;> simp [wireBit]
  rw [unpack, vbias, cmode, oneShot, wire, filter, hwire, ← Filter.eq_ite_bit]

end Sys2Proof.Machine
end

section
/-! The configuration of CONFIGURE, and its byte. -/

open Sys2Proof Sys2Proof.Machine

/-- Settles O6: the word's V is the V field of the configuration it decodes to. -/
theorem configureFieldsFromWord : Obligations.ConfigureFieldsFromWord := by
  unfold Obligations.ConfigureFieldsFromWord
  intro w cfg hd
  obtain ⟨-, -, (hv : cfg.vField = vOf w), -, -⟩ := fields_of_command hd
  obtain ⟨vbias, cmode, oneShot, wire, filter⟩ := cfg.vField_fields
  rw [hv] at vbias cmode oneShot wire filter
  rw [getLsbD_vOf w (by decide)] at vbias cmode oneShot filter
  rw [extractLsb'_vOf w (by decide)] at wire
  refine ⟨vbias.symm, cmode.symm, oneShot.symm, ?_, by rw [filter, ← Filter.eq_ite_bit]⟩
  rw [wire]
  cases cfg.wire <;> simp [Wire.bits]

/-- Settles O51: the fields of the byte, and the reference parameters. -/
theorem packBits : Obligations.PackBits := by
  unfold Obligations.PackBits
  refine ⟨fun p cfg => ?_, rfl, rfl, by decide⟩
  rw [← wireBit_eq_ite, ← Filter.bit_eq_decide]
  exact pack_fields p cfg

/-- Settles O52: bits 3:1 are the only part of a byte that unpacking drops, and the bit for two wires is the bit for four. -/
theorem packRoundTrips : Obligations.PackRoundTrips := by
  unfold Obligations.PackRoundTrips
  refine ⟨fun p b => ?_, fun p cfg => ⟨fun hw => ?_, fun hw => ?_⟩⟩
  · have hrsvd : (pack p (unpack p b)).extractLsb' 1 3 = p.rsvd := by
      obtain ⟨-, -, -, -, rsvd, -⟩ := pack_fields p (unpack p b)
      exact rsvd
    refine ⟨⟨fun h => ?_, fun h => ?_⟩, ?_, hrsvd, ?_⟩
    · rw [← hrsvd, h]
    · rw [pack_unpack, ← h, byte_eq_parts]
    · rw [pack_unpack, BitVec.extractLsb'_append_eq_of_le (by decide), BitVec.extractLsb'_append_eq_of_le (by decide),
        BitVec.extractLsb'_eq_self]
    · obtain ⟨-, -, -, -, -, filter⟩ := pack_fields p (unpack p b)
      rw [filter, unpack, Filter.bit_ite]
  · rw [unpack_pack, if_neg hw]
  · rw [unpack_pack, if_pos hw]

end

section
/-! A command of two transactions, from its issue to its end (R145, R160, R215). -/

namespace Sys2Proof.Machine

open Sys2Proof Sys2Proof.Certificates

/-- What the oracle answers after a completed transaction depends on the bus alone (R72). -/
theorem spiAnswer_txDone (s : State) (kind1 : TxKind) (tx1 : List Byte) (rx : Rx) (kind2 : TxKind) (tx2 : List Byte) :
    (s.txDone kind1 tx1 rx).spiAnswer kind2 tx2 =
      (afterBus s [⟨kind1, tx1, .bytes (received kind1 rx)⟩]).spiAnswer kind2 tx2 := by
  rw [txDone_eq_afterBus]
  rfl

section Equations

/-! The step of a two-transaction command, an equation for each of its four branches. -/

variable {kind1 kind2 : TxKind} {tx1 tx2 : List Byte} {onFail commit : State → State} {s : State}

theorem twoTransactions_of_failed (h : s.opl.failed = true) :
    twoTransactions kind1 tx1 kind2 tx2 onFail commit s = onFail s := by
  simp [twoTransactions, h]

theorem twoTransactions_first (hf : s.opl.failed = false) (hn : s.phase.step = 0) :
    twoTransactions kind1 tx1 kind2 tx2 onFail commit s = s.transact kind1 tx1 := by
  simp [twoTransactions, hf, hn]

theorem twoTransactions_second (hf : s.opl.failed = false) (hn : s.phase.step = 1) :
    twoTransactions kind1 tx1 kind2 tx2 onFail commit s = s.transact kind2 tx2 := by
  simp [twoTransactions, hf, hn]

theorem twoTransactions_commit (hf : s.opl.failed = false) (hn : s.phase.step = 2) :
    twoTransactions kind1 tx1 kind2 tx2 onFail commit s = commit s := by
  simp [twoTransactions, hf, hn]

end Equations

section TwoSteps

/-! What a command sends and its guard may depend on the parameters and on STATUS, which no transaction changes. -/

variable {i : Instr} {kind1 kind2 : TxKind} {tx1 tx2 : List Byte} {onFail commit : State → State} {s : State}
  (hexec : ∀ u : State, u.params = s.params → u.status = s.status →
    exec i u = .next (twoTransactions kind1 tx1 kind2 tx2 onFail commit u))
  (hs : s.JustIssued i)
include hexec hs

/-- A first transaction that fails is followed by the error's commit, with no second one (R115). -/
theorem exec_first_failed (ha : s.spiAnswer kind1 tx1 = .ioFail) :
    ∃ s1, exec i s = .next s1 ∧ exec i s1 = .next (onFail (s.txFail kind1 tx1)) := by
  refine ⟨s.txFail kind1 tx1, ?_, ?_⟩
  · rw [hexec s rfl rfl, twoTransactions_first hs.failed (by simp [hs.phase]), transact_of_ioFail ha]
  · rw [hexec _ (by simp) (by simp), twoTransactions_of_failed rfl]

variable {r0 r1 : Byte} (ha : s.spiAnswer kind1 tx1 = .done r0 r1)
include ha

/-- After a first transaction that completes the command's next step is its second. -/
theorem exec_first_done : exec i s = .next (s.txDone kind1 tx1 ⟨r0, r1⟩) ∧
    exec i (s.txDone kind1 tx1 ⟨r0, r1⟩) = .next ((s.txDone kind1 tx1 ⟨r0, r1⟩).transact kind2 tx2) := by
  constructor
  · rw [hexec s rfl rfl, twoTransactions_first hs.failed (by simp [hs.phase]), transact_of_done ha]
  · rw [hexec _ (by simp) (by simp), twoTransactions_second (by simp [hs.failed]) (by simp [hs.phase])]

/-- A second transaction that fails is followed by the error's commit (R115). -/
theorem exec_second_failed
    (hb : (afterBus s [⟨kind1, tx1, .bytes (received kind1 ⟨r0, r1⟩)⟩]).spiAnswer kind2 tx2 = .ioFail) :
    ∃ s1 s2, exec i s = .next s1 ∧ exec i s1 = .next s2 ∧
      exec i s2 = .next (onFail ((s.txDone kind1 tx1 ⟨r0, r1⟩).txFail kind2 tx2)) := by
  obtain ⟨hfirst, hsecond⟩ := exec_first_done hexec hs ha
  rw [transact_of_ioFail (by rwa [spiAnswer_txDone])] at hsecond
  refine ⟨_, _, hfirst, hsecond, ?_⟩
  rw [hexec _ (by simp) (by simp), twoTransactions_of_failed (by simp)]

/-- Two transactions that complete are followed by the commit (R80). -/
theorem exec_both_done {q0 q1 : Byte}
    (hb : (afterBus s [⟨kind1, tx1, .bytes (received kind1 ⟨r0, r1⟩)⟩]).spiAnswer kind2 tx2 = .done q0 q1) :
    ∃ s1 s2, exec i s = .next s1 ∧ exec i s1 = .next s2 ∧
      exec i s2 = .next (commit ((s.txDone kind1 tx1 ⟨r0, r1⟩).txDone kind2 tx2 ⟨q0, q1⟩)) := by
  obtain ⟨hfirst, hsecond⟩ := exec_first_done hexec hs ha
  rw [transact_of_done (by rwa [spiAnswer_txDone])] at hsecond
  refine ⟨_, _, hfirst, hsecond, ?_⟩
  rw [hexec _ (by simp) (by simp), twoTransactions_commit (by simp [hs.failed]) (by simp [hs.phase])]

end TwoSteps

section TwoEvents

variable {i : Instr} {s : State} (hs : s.JustIssued i) (kind1 kind2 : TxKind) (tx1 tx2 : List Byte) (rx1 rx2 : Rx)
include hs

/-- Two completed transactions of a command (R21, R42, R111 to R113). -/
theorem txDone_txDone_eq_afterBus : (s.txDone kind1 tx1 rx1).txDone kind2 tx2 rx2 = { afterBus s
      [⟨kind1, tx1, .bytes (received kind1 rx1)⟩, ⟨kind2, tx2, .bytes (received kind2 rx2)⟩] with
    opl := (s.opl.store kind1 0 rx1).store kind2 1 rx2
    phase := .exec i.opc 2 } := by
  simp [txDone_eq_afterBus, afterBus, hs.phase]

/-- A completed transaction of a command and a failed one (R115). -/
theorem txDone_txFail_eq_afterBus : (s.txDone kind1 tx1 rx1).txFail kind2 tx2 = { afterBus s
      [⟨kind1, tx1, .bytes (received kind1 rx1)⟩, ⟨kind2, tx2, .ioFail⟩] with
    opl := { s.opl.store kind1 0 rx1 with failed := true }
    phase := .exec i.opc 1 } := by
  simp [txDone_eq_afterBus, txFail_eq_afterBus, afterBus, hs.phase]

end TwoEvents

end Sys2Proof.Machine
end

section
/-! READ_RAW and IS_READY, state by state (R155 to R164). -/

namespace Sys2Proof.Machine

open Sys2Proof Sys2Proof.Certificates

/-- STATE refuses only while UNCONFIGURED (R163). -/
theorem refusedByState_eq_false {s : State} (h : s.status.state ≠ .unconfigured) : refusedByState s = false := by
  simp [refusedByState, h]

/-- Out of UNCONFIGURED READ_RAW is a command of two transactions. -/
theorem exec_readRaw_of_configured {s : State} (h : s.status.state ≠ .unconfigured) (u : State) (hu : u.status = s.status) :
    exec .readRaw u =
      .next (twoTransactions .full [0x01#8, 0x00#8] .full [0x02#8, 0x00#8] (State.raise .io) commitRaw u) := by
  rw [exec, execReadRaw, refusedByState_eq_false (by rwa [hu])]
  rfl

/-- An error's commit sets STICKY (R80, R232). -/
theorem finish_of_error {code : ErrCode} (h : code.isError = true) (s : State) : s.finish code = { s with
    status := { s.status with busy := false, err := code, sticky := true }
    phase := .idle } := by
  simp [State.finish, stickyAfter, h]

/-- The fault bit of a reading is bit 0 of its LSB byte (R69, R182). -/
@[simp] theorem faultBit_raw16 (msb lsb : Byte) : faultBit (raw16 msb lsb) = lsb.getLsbD 0 := by
  rw [faultBit, raw16, BitVec.getLsbD_append, if_pos (by decide)]

end Sys2Proof.Machine
end

section
/-! IS_READY and READ_RAW, from their issue to their end. -/

open Sys2Proof Sys2Proof.Machine Sys2Proof.Certificates

/-- Settles O39: IS_READY has one step, a sample and a commit or the error's commit. -/
theorem isReadySamples : Obligations.IsReadySamples := by
  unfold Obligations.IsReadySamples
  intro s
  rw [exec, execIsReady, State.raise_eq]
  refine ⟨fun hline => ?_, fun hline => ?_⟩
  · rw [hline, if_pos rfl]
    simp [State.finish, State.setReady, State.sampled, readyFlag]
  · rw [hline, if_neg (by decide), finish_of_error rfl]

/-- Settles O40: two reads that complete, and the commit of the value made of their second bytes. -/
theorem readRawSucceeds : Obligations.ReadRawSucceeds := by
  unfold Obligations.ReadRawSucceeds
  intro s m0 m1 l0 l1 hs hstate ha hb
  obtain ⟨s1, s2, h1, h2, h3⟩ := exec_both_done (fun u _ => exec_readRaw_of_configured hstate u) hs ha hb
  refine ⟨s1, s2, h1, h2, h3.trans (congrArg _ ?_)⟩
  rw [txDone_txDone_eq_afterBus hs, commitRaw, Opl.rawRead, faultBit_raw16, State.finish, stickyAfter_ok]
  rfl

/-- Settles O41: STATE refuses before a transaction, and a read that fails is the last. -/
theorem readRawErrors : Obligations.ReadRawErrors := by
  unfold Obligations.ReadRawErrors
  intro s hs
  refine ⟨fun hstate => ?_, fun hstate ha => ?_, fun m0 m1 hstate ha hb => ?_⟩
  · have hrefused : refusedByState s = true := by simp [refusedByState, hs.phase, hstate]
    rw [exec, execReadRaw, if_pos hrefused, State.raise_eq, finish_of_error rfl]
  · obtain ⟨s1, h1, h2⟩ := exec_first_failed (fun u _ => exec_readRaw_of_configured hstate u) hs ha
    refine ⟨s1, h1, h2.trans (congrArg _ ?_)⟩
    rw [txFail_eq_afterBus, State.raise_eq, finish_of_error rfl]
    rfl
  · obtain ⟨s1, s2, h1, h2, h3⟩ := exec_second_failed (fun u _ => exec_readRaw_of_configured hstate u) hs ha hb
    refine ⟨s1, s2, h1, h2, h3.trans (congrArg _ ?_)⟩
    rw [txDone_txFail_eq_afterBus hs, State.raise_eq, finish_of_error rfl]
    rfl

end

section
/-! What a command's end leaves of the protocol state (R171 to R175), and what any step does. -/

namespace Sys2Proof.Machine

open Sys2Proof

/-- The transition table of R175: the STATUS at the end of command `i`, issued in protocol state `before`. -/
def ProtocolOutcome (i : Instr) (before : ProtoState) (after : Status) : Prop :=
  match i with
  | .configure _ =>
    after.err = .ok ∧ after.state = .configured ∨ (after.err = .io ∨ after.err = .verify) ∧ after.state = .unconfigured
  | .softReset => after.err = .ok ∧ after.state = .unconfigured
  | .readRaw | .measure =>
    after.err = .ok ∧ before ≠ .unconfigured ∧ after.state = .reading ∨
    after.err = .state ∧ before = .unconfigured ∧ after.state = .unconfigured ∨
    after.err = .io ∧ before ≠ .unconfigured ∧ after.state = before
  | .isReady | .decode | .lookup | .rwHalf _ _ | .xfer _ | .writeReg _ _ | .readReg _ => after.state = before

/-- READ_RAW and MEASURE have performed no transaction while UNCONFIGURED (R163, R218). -/
def State.Guarded (i : Instr) (s : State) : Prop :=
  i = .readRaw ∨ i = .measure → s.status.state = .unconfigured → s.phase.step = 0

/-- A two-transaction command that has ended took one of its two commits. -/
theorem twoTransactions_of_idle {kind1 kind2 : TxKind} {tx1 tx2 : List Byte} {onFail commit : State → State} {s : State}
    (hp : s.phase ≠ .idle) (hi : (twoTransactions kind1 tx1 kind2 tx2 onFail commit s).phase = .idle) :
    twoTransactions kind1 tx1 kind2 tx2 onFail commit s = onFail s ∨
      twoTransactions kind1 tx1 kind2 tx2 onFail commit s = commit s := by
  rcases twoTransactions_cases kind1 tx1 kind2 tx2 onFail commit s with ⟨_, e⟩ | ⟨_, _, e⟩ | ⟨_, _, e⟩ | ⟨_, _, e⟩
  · exact .inl e
  · exact absurd (e ▸ hi) (transact_phase_ne_idle kind1 tx1 hp)
  · exact absurd (e ▸ hi) (transact_phase_ne_idle kind2 tx2 hp)
  · exact .inr e

/-- The commit of CONFIGURE once both transactions have completed (R148, R172). -/
theorem configureCommits_status (b : Byte) (s : State) :
    (configureCommits b s).status.err = .ok ∧ (configureCommits b s).status.state = .configured ∨
      (configureCommits b s).status.err = .verify ∧ (configureCommits b s).status.state = .unconfigured := by
  unfold configureCommits
  split
  · exact .inl ⟨rfl, rfl⟩
  · exact .inr ⟨rfl, rfl⟩

/-- A command's last step ends it as R175 says. -/
theorem exec_protocolOutcome {i : Instr} {s t : State} (h : exec i s = .next t) (hg : s.Guarded i) (hp : s.phase ≠ .idle)
    (hi : t.phase = .idle) : ProtocolOutcome i s.status.state t.status := by
  cases i with
  | configure cfg =>
    cases h
    rcases twoTransactions_of_idle hp hi with e | e <;> rw [e]
    · exact .inr ⟨.inl rfl, rfl⟩
    · exact (configureCommits_status _ s).imp_right (And.imp_left .inr)
  | readRaw | measure =>
    cases h
    by_cases hrefused : refusedByState s = true
    · rw [if_pos hrefused]
      simp only [refusedByState, Bool.and_eq_true, decide_eq_true_eq] at hrefused
      obtain ⟨-, hstate⟩ := hrefused
      exact .inr (.inl ⟨rfl, hstate, hstate⟩)
    · have hstate : s.status.state ≠ .unconfigured := fun hu => hrefused (by simp [refusedByState, hu, hg (by simp) hu])
      rw [if_neg hrefused] at hi ⊢
      rcases twoTransactions_of_idle hp hi with e | e <;> rw [e]
      · exact .inr (.inr ⟨rfl, hstate, rfl⟩)
      · exact .inl ⟨rfl, hstate, rfl⟩
  | softReset => cases h; exact ⟨rfl, rfl⟩
  | rwHalf | xfer | readReg =>
    cases h
    exact (keepsProtocol_oneTransaction_commitRxd _ _ s).state
  | writeReg => exact (execWriteReg_keeps h).1.state
  | decode | lookup => cases h; rfl
  | isReady =>
    rw [exec, execIsReady] at h
    split at h
    · cases h; rfl
    · cases h; rfl

/-- A running command that ends, ends by R175: its transactions keep the protocol state, and its last turn is its commit. -/
theorem controllerTurns_protocolOutcome {i : Instr} {t : State} :
    ∀ (k : Nat) (s : State), s.Running i → s.Guarded i → controllerTurns k s = .next t → t.phase = .idle →
      ProtocolOutcome i s.status.state t.status
  | 0, s, hrun, _, h, hi => by
    obtain ⟨-, hp, -⟩ := s.controllerReady_iff.mp hrun.ready
    cases h
    exact absurd hi hp
  | k + 1, s, hrun, hg, h, hi => by
    obtain ⟨-, hp, -⟩ := s.controllerReady_iff.mp hrun.ready
    obtain ⟨u, hu⟩ := exec_next i s
    rw [controllerTurns_succ_of_command hrun.ready hrun.dec hu] at h
    cases exec_step hu with
    | transaction kind tx failed more sent allowed eq =>
      subst eq
      have hconfigured : i = .readRaw ∨ i = .measure → s.status.state ≠ .unconfigured :=
        fun hread hstate => allowed hread hstate (hg hread hstate)
      rcases transact_cases kind tx s with ⟨rx0, rx1, _, e⟩ | ⟨_, e⟩ | ⟨_, e⟩ <;> rw [e] at h
      · exact controllerTurns_protocolOutcome k (s.txDone kind tx ⟨rx0, rx1⟩) (hrun.txDone kind tx ⟨rx0, rx1⟩)
          (fun hread hstate => absurd hstate (hconfigured hread)) h hi
      · exact controllerTurns_protocolOutcome k (s.txFail kind tx) (hrun.txFail kind tx)
          (fun hread hstate => absurd hstate (hconfigured hread)) h hi
      · rw [controllerTurns_of_not_ready (by simp [State.controllerReady])] at h
        cases h
        exact absurd hi hp
    | commit idle _ _ =>
      rw [controllerTurns_of_not_ready (by simp [State.controllerReady, idle])] at h
      cases h
      exact exec_protocolOutcome hu hg hp idle

/-- What a step of the machine does to the protocol state: it keeps it and ends no command, resets, ends an illegal word's
command, or ends a command by R175. -/
inductive ProtocolStep (s t : State) : Prop where
  | keeps (state : t.status.state = s.status.state) (running : s.phase ≠ .idle → t.phase ≠ .idle)
  | resets (rst : t.rst = true) (state : t.status.state = .unconfigured)
  | illegal (why : Illegal) (dec : decodeWord s.opl.w = .illegal why) (state : t.status.state = s.status.state)
  | ends (i : Instr) (dec : decodeWord s.opl.w = .command i) (idle : t.phase = .idle)
      (outcome : ProtocolOutcome i s.status.state t.status)

/-- No access of the host changes the protocol state or ends a command. -/
theorem HostStep.protocol {s t : State} (h : HostStep s t) :
    t.status.state = s.status.state ∧ (s.phase ≠ .idle → t.phase ≠ .idle) := by
  cases h with
  | issues p v _ _ eq => subst eq; exact ⟨rfl, by simp⟩
  | completes w _ _ eq => subst eq; exact ⟨rfl, by simp⟩
  | waits eq | answered _ _ eq | holds _ _ _ _ _ eq | writesArg _ _ _ eq => subst eq; exact ⟨rfl, id⟩

/-- The inversion of `step` for the protocol state. -/
theorem step_protocol {s t : State} (hinv : s.Inv) (h : step s = .next t) : ProtocolStep s t := by
  obtain ⟨-, h⟩ := step_cases h
  cases h with
  | reset level rest _ eq =>
    subst eq
    cases level with
    | true => exact .resets rfl rfl
    | false => exact .keeps rfl id
  | illegal rest why _ _ dec eq => subst eq; exact .illegal why dec rfl
  | waits rest eq => subst eq; exact .keeps rfl id
  | host rest h =>
    obtain ⟨state, running⟩ := h.protocol
    exact .keeps state running
  | command rest i _ ready dec eq =>
    have hp : s.phase ≠ .idle := (s.controllerReady_iff.mp ready).2.1
    cases exec_step eq with
    | transaction kind tx _ _ _ _ e =>
      subst e
      obtain ⟨status, -⟩ := transact_registers kind tx { s with turns := rest }
      exact .keeps (by rw [status]) fun _ => transact_phase_ne_idle kind tx hp
    | commit idle _ _ =>
      have hguarded : State.Guarded i { s with turns := rest } := fun hread hstate => by
        refine hinv.guarded hstate ?_
        rw [dec]
        exact hread.imp (congrArg _) (congrArg _)
      have houtcome := exec_protocolOutcome eq hguarded hp idle
      exact .ends i dec idle houtcome

/-- By R175 only a CONFIGURE that ends OK leads out of UNCONFIGURED (R171). -/
theorem ProtocolOutcome.configured_of_left {i : Instr} {st : Status} (h : ProtocolOutcome i .unconfigured st)
    (hleft : st.state ≠ .unconfigured) : ∃ cfg, i = .configure cfg ∧ st.err = .ok ∧ st.state = .configured := by
  cases i with
  | configure cfg =>
    rcases h with ⟨ok, state⟩ | ⟨_, state⟩
    · exact ⟨cfg, rfl, ok, state⟩
    · exact absurd state hleft
  | readRaw | measure =>
    rcases h with ⟨_, hne, _⟩ | ⟨_, _, state⟩ | ⟨_, hne, _⟩
    · exact absurd rfl hne
    · exact absurd state hleft
    · exact absurd rfl hne
  | softReset => exact absurd h.2 hleft
  | isReady | decode | lookup | rwHalf | xfer | writeReg | readReg => exact absurd h hleft

/-- A CONFIGURE that ends OK ends in CONFIGURED, whatever the state before (R171). -/
theorem ProtocolOutcome.configured_of_ok {cfg : Cfg} {before : ProtoState} {st : Status}
    (h : ProtocolOutcome (.configure cfg) before st) (ok : st.err = .ok) : st.state = .configured := by
  rcases h with ⟨_, state⟩ | ⟨io | verify, _⟩
  · exact state
  · simp [ok] at io
  · simp [ok] at verify

end Sys2Proof.Machine
end

section
/-! The state machine of the register protocol. -/

open Sys2Proof Sys2Proof.Machine

/-- Settles O20: a step that changes STATE resets it or ends a command, and by R175 the one end that leads out of UNCONFIGURED is
CONFIGURE's with OK. -/
theorem configureOnlyWayOut : Obligations.ConfigureOnlyWayOut := by
  unfold Obligations.ConfigureOnlyWayOut
  intro s t hinv h
  refine ⟨fun hstate hleft => ?_, fun cfg hd hp hi hr ok => ?_⟩
  · cases step_protocol hinv h with
    | keeps state _ | illegal _ _ state => exact absurd (state.trans hstate) hleft
    | resets _ state => exact absurd state hleft
    | ends i dec idle outcome =>
      rw [hstate] at outcome
      obtain ⟨cfg, rfl, ok, state⟩ := outcome.configured_of_left hleft
      exact ⟨cfg, dec, idle, ok, state⟩
  · cases step_protocol hinv h with
    | keeps _ running => exact absurd hi (running hp)
    | illegal why dec _ => simp [hd] at dec
    | resets rst _ => simp [hr] at rst
    | ends i dec _ outcome =>
      obtain rfl : Instr.configure cfg = i := by simpa [hd] using dec
      exact outcome.configured_of_ok ok

/-- Settles O58: by induction on the turns of the controller, the command's last step ends it by R175's table. -/
theorem protocolTransitions : Obligations.ProtocolTransitions := by
  unfold Obligations.ProtocolTransitions
  intro s t w hr hx h hi
  cases hd : decodeWord w with
  | illegal why =>
    rw [commandRun_of_illegal hr hx hd] at h
    cases h
    exact ⟨rfl, rfl⟩
  | command i =>
    have houtcome : ProtocolOutcome i s.status.state t.status :=
      controllerTurns_protocolOutcome 3 (s.issue w) (running_issue hr hx hd) (fun _ _ => rfl) h hi
    cases i <;> exact houtcome

end

section
/-! The conversion decoder in plain arithmetic (R181 to R183). -/

namespace Sys2Proof.Machine

open Sys2Proof

/-- The ADC code is the raw value without its bit 0 (R182). -/
theorem code15_eq_div (raw : BitVec 16) : code15 raw = raw.toNat / 2 := by
  rw [code15, BitVec.toNat_ushiftRight, Nat.shiftRight_eq_div_pow, Nat.pow_one]

theorem code15_le (raw : BitVec 16) : code15 raw ≤ 32767 := by
  rw [code15_eq_div]
  omega

/-- The largest product of the decoder (R183). -/
theorem code15_mul_cal_le (cal : Word) (raw : BitVec 16) : code15 raw * cal.toNat ≤ 32767 * 4294967295 :=
  Nat.mul_le_mul (code15_le raw) (Nat.le_pred_of_lt cal.isLt)

/-- The decoder's shift is a floor division (R184). -/
theorem decodedOhms_eq_ofNat (cal : Word) (raw : BitVec 16) :
    decodedOhms cal raw = BitVec.ofNat 32 (code15 raw * cal.toNat / 32768) := by
  rw [decodedOhms, Nat.shiftRight_eq_div_pow]

/-- The quotient fits 32 bits, so OHMS does not wrap (R183). -/
theorem toNat_decodedOhms (cal : Word) (raw : BitVec 16) :
    (decodedOhms cal raw).toNat = code15 raw * cal.toNat / 32768 := by
  have hprod := code15_mul_cal_le cal raw
  rw [decodedOhms_eq_ofNat, BitVec.toNat_ofNat, Nat.mod_eq_of_lt (by omega)]

/-- The ADC code is below 2^15, so the quotient is below CAL (R187). -/
theorem decodedOhms_lt_cal {cal : Word} (hcal : 0 < cal.toNat) (raw : BitVec 16) :
    (decodedOhms cal raw).toNat < cal.toNat := by
  have hcode : code15 raw < 32768 := Nat.lt_succ_of_le (code15_le raw)
  rw [toNat_decodedOhms]
  exact Nat.div_lt_of_lt_mul (Nat.mul_lt_mul_of_pos_right hcode hcal)

/-- DECODE's raw value is the latched ARG modulo 2^16 (R95). -/
@[simp] theorem Opl.toNat_rawOperand (o : Opl) : o.rawOperand.toNat = o.arg.toNat % 65536 := by
  rw [Opl.rawOperand, BitVec.extractLsb'_toNat, Nat.shiftRight_zero]

/-- DECODE reports bit 0 of the latched ARG (R182, R186). -/
@[simp] theorem faultBit_rawOperand (o : Opl) : faultBit o.rawOperand = o.arg.getLsbD 0 := by
  simp [faultBit, Opl.rawOperand]

end Sys2Proof.Machine
end

section
/-! The decoder's properties and the command DECODE. -/

open Sys2Proof Sys2Proof.Machine

/-- Settles O44: the product is at most 32767 * (2^32 - 1), whose quotient by 2^15 fits 32 bits. -/
theorem decodedOhmsExact : Obligations.DecodedOhmsExact := by
  unfold Obligations.DecodedOhmsExact
  intro cal raw
  have hprod := code15_mul_cal_le cal raw
  rw [toNat_decodedOhms, ← code15_eq_div]
  exact ⟨Nat.lt_of_le_of_lt hprod (by decide), rfl, Nat.div_le_div_right hprod⟩

/-- Settles O45: each property is one of the floor quotient that OHMS is. -/
theorem decoderProperties : Obligations.DecoderProperties := by
  unfold Obligations.DecoderProperties
  simp only [← code15_eq_div]
  refine ⟨fun cal raw raw' hle => ?_, fun raw => ?_, fun raw => ?_, fun cal raw hcal => decodedOhms_lt_cal hcal raw,
    fun cal raw raw' heq => ?_⟩
  · rw [toNat_decodedOhms, toNat_decodedOhms]
    exact Nat.div_le_div_right (Nat.mul_le_mul_right _ hle)
  · rw [decodedOhms_eq_ofNat, BitVec.toNat_zero, Nat.mul_zero, Nat.zero_div]
  · rw [toNat_decodedOhms]
    exact Nat.mul_div_cancel _ (by decide)
  · rw [decodedOhms_eq_ofNat, decodedOhms_eq_ofNat, heq]

/-- Settles O43: one commit, with OK, of the latched operand decoded. -/
theorem decodeCommits : Obligations.DecodeCommits := by
  unfold Obligations.DecodeCommits
  intro s
  rw [exec, execDecode, faultBit_rawOperand, decodedOhms_eq_ofNat, code15_eq_div, Opl.toNat_rawOperand, State.finish,
    stickyAfter_ok]
  rfl

end

section
/-! The lookup engine: the order of the keys (R41), the interpolation (R196, R197) and the bracket (R199). -/

namespace Sys2Proof.Machine

open Sys2Proof

/-! The order of the keys. -/

theorem tableIncreasing_cons_cons (a b : Sample) (rest : List Sample) :
    tableIncreasing (a :: b :: rest) = true ↔ a.r.toNat < b.r.toNat ∧ tableIncreasing (b :: rest) = true := by
  rw [tableIncreasing, Bool.and_eq_true, decide_eq_true_eq]

/-- In an increasing table every key is below all later ones, not only below the next (R41). -/
theorem pairwise_of_tableIncreasing : ∀ {table : List Sample}, tableIncreasing table = true →
    table.Pairwise fun a b => a.r.toNat < b.r.toNat
  | [], _ => .nil
  | [a], _ => List.pairwise_singleton _ a
  | a :: b :: rest, hinc => by
    obtain ⟨hab, htail⟩ := (tableIncreasing_cons_cons a b rest).mp hinc
    have ih := pairwise_of_tableIncreasing htail
    refine List.pairwise_cons.mpr ⟨fun c hc => ?_, ih⟩
    rcases List.mem_cons.mp hc with rfl | hrest
    · exact hab
    · exact Nat.lt_trans hab (List.rel_of_pairwise_cons ih hrest)

/-- A legal instance has at least two samples, their keys increasing (R7, R202). -/
theorem Params.legal_table {p : Params} (h : p.legal = true) : 2 ≤ p.table.length ∧ tableIncreasing p.table = true := by
  simp only [Params.legal, Bool.and_eq_true, decide_eq_true_eq] at h
  obtain ⟨⟨⟨⟨hlen, -⟩, hinc⟩, -⟩, -⟩ := h
  exact ⟨hlen, hinc⟩

variable {table : List Sample} {a b first last : Sample} {x i j : Nat}

theorem key_lt_key (hinc : tableIncreasing table = true) (ha : table[i]? = some a) (hb : table[j]? = some b) (hij : i < j) :
    a.r.toNat < b.r.toNat := by
  obtain ⟨hi, rfl⟩ := List.getElem?_eq_some_iff.mp ha
  obtain ⟨hj, rfl⟩ := List.getElem?_eq_some_iff.mp hb
  exact List.pairwise_iff_getElem.mp (pairwise_of_tableIncreasing hinc) i j hi hj hij

theorem key_le_key (hinc : tableIncreasing table = true) (ha : table[i]? = some a) (hb : table[j]? = some b) (hij : i ≤ j) :
    a.r.toNat ≤ b.r.toNat := by
  rcases Nat.eq_or_lt_of_le hij with rfl | hlt
  · obtain rfl : a = b := Option.some.inj (ha.symm.trans hb)
    exact Nat.le_refl _
  · exact Nat.le_of_lt (key_lt_key hinc ha hb hlt)

/-- The first key is the least. -/
theorem firstKey_le (hinc : tableIncreasing table = true) (hfirst : table.head? = some first) (ha : table[i]? = some a) :
    first.r.toNat ≤ a.r.toNat :=
  key_le_key hinc (List.head?_eq_getElem? ▸ hfirst) ha (Nat.zero_le i)

/-- The last key is the greatest. -/
theorem key_le_lastKey (hinc : tableIncreasing table = true) (hlast : table.getLast? = some last) (ha : table[i]? = some a) :
    a.r.toNat ≤ last.r.toNat := by
  obtain ⟨hi, -⟩ := List.getElem?_eq_some_iff.mp ha
  exact key_le_key hinc ha (List.getLast?_eq_getElem? ▸ hlast) (by omega)

/-! The interpolation. -/

/-- The quotient of R196, by which the interpolation differs from the left temperature. -/
theorem interpolate_eq_add_tdiv (a b : Sample) (x : Nat) : interpolate a b x =
    a.t.toInt + Int.tdiv (((x : Int) - a.r.toNat) * (b.t.toInt - a.t.toInt)) ((b.r.toNat : Int) - a.r.toNat) := rfl

/-- At the left key the interpolation is the left temperature (R199). -/
theorem interpolate_leftKey (a b : Sample) : interpolate a b a.r.toNat = a.t.toInt := by
  rw [interpolate_eq_add_tdiv, Int.sub_self, Int.zero_mul, Int.zero_tdiv, Int.add_zero]

/-- At the right key the interpolation is the right temperature (R199). -/
theorem interpolate_rightKey (hkeys : a.r.toNat < b.r.toNat) : interpolate a b b.r.toNat = b.t.toInt := by
  rw [interpolate_eq_add_tdiv, Int.mul_tdiv_cancel_left _ (by omega)]
  omega

/-- A part `k / n` of `d`, truncated, is no larger than `d` when `k ≤ n` (R197). -/
theorem natAbs_tdiv_le {k n : Int} (hk : 0 ≤ k) (hkn : k ≤ n) (d : Int) : (Int.tdiv (k * d) n).natAbs ≤ d.natAbs := by
  rw [Int.natAbs_tdiv, Int.natAbs_mul]
  exact Nat.div_le_of_le_mul (Nat.mul_le_mul_right _ (by omega))

/-- Such a part lies between 0 and `d`, whose sign it has (R197). -/
theorem tdiv_between {k n : Int} (hk : 0 ≤ k) (hkn : k ≤ n) (d : Int) :
    min 0 d ≤ Int.tdiv (k * d) n ∧ Int.tdiv (k * d) n ≤ max 0 d := by
  have hn : 0 ≤ n := Int.le_trans hk hkn
  have hle := natAbs_tdiv_le hk hkn d
  rcases Int.le_total 0 d with hd | hd
  · have hq : 0 ≤ Int.tdiv (k * d) n := Int.tdiv_nonneg (Int.mul_nonneg hk hd) hn
    omega
  · have hq : 0 ≤ Int.tdiv (k * -d) n := Int.tdiv_nonneg (Int.mul_nonneg hk (Int.neg_nonneg_of_nonpos hd)) hn
    rw [Int.mul_neg, Int.neg_tdiv] at hq
    omega

/-- Between two keys the interpolation lies between their temperatures (R197). -/
theorem interpolate_between (ha : a.r.toNat ≤ x) (hb : x ≤ b.r.toNat) :
    min a.t.toInt b.t.toInt ≤ interpolate a b x ∧ interpolate a b x ≤ max a.t.toInt b.t.toInt := by
  have hq := tdiv_between (k := (x : Int) - a.r.toNat) (n := (b.r.toNat : Int) - a.r.toNat) (by omega) (by omega)
    (b.t.toInt - a.t.toInt)
  rw [interpolate_eq_add_tdiv]
  omega

/-! The bracket. -/

/-- Whichever bracket holds the ohms value, the search returns its interpolation: of two such brackets the value is the key they
share (R199, R201). -/
theorem inTable_of_bracket : ∀ {table : List Sample} {i x : Nat} {a b : Sample}, tableIncreasing table = true →
    table[i]? = some a → table[i + 1]? = some b → a.r.toNat ≤ x → x ≤ b.r.toNat → inTable table x = interpolate a b x
  | [_, _], 0, _, _, _, _, ha, hb, _, _ => by cases ha; cases hb; rfl
  | a :: b :: c :: rest, 0, x, _, _, hinc, ha, hb, _, hxb => by
    cases ha
    cases hb
    rw [inTable]
    split
    next hbx =>
      obtain rfl : x = b.r.toNat := Nat.le_antisymm hxb hbx
      obtain ⟨hab, htail⟩ := (tableIncreasing_cons_cons _ b _).mp hinc
      have hbc : b.r.toNat ≤ c.r.toNat := key_le_key htail (i := 0) (j := 1) rfl rfl (by decide)
      rw [inTable_of_bracket (a := b) (b := c) (i := 0) htail rfl rfl (Nat.le_refl _) hbc, interpolate_leftKey,
        interpolate_rightKey hab]
    next => rfl
  | _ :: second :: c :: rest, i + 1, x, _, _, hinc, ha, hb, hax, hxb => by
    obtain ⟨-, htail⟩ := (tableIncreasing_cons_cons _ second _).mp hinc
    have hsecond : second.r.toNat ≤ x := Nat.le_trans (key_le_key htail (i := 0) rfl ha (Nat.zero_le i)) hax
    rw [inTable, if_pos hsecond]
    exact inTable_of_bracket htail ha hb hax hxb

/-- Within the range of the table a bracket holds the ohms value: the last one, or one whose right key is above it (R199). -/
theorem exists_bracket : ∀ {table : List Sample} {first : Sample}, 2 ≤ table.length → table.head? = some first →
    table.getLast? = some last → first.r.toNat ≤ x → x ≤ last.r.toNat →
    ∃ (i : Nat) (a b : Sample), table[i]? = some a ∧ table[i + 1]? = some b ∧ a.r.toNat ≤ x ∧ x ≤ b.r.toNat ∧
      (i + 2 = table.length ∨ x < b.r.toNat)
  | [a, b], _, _, hfirst, hlast, hfx, hxl => by
    cases hfirst
    cases hlast
    exact ⟨0, a, b, rfl, rfl, hfx, hxl, .inl rfl⟩
  | a :: b :: c :: rest, _, _, hfirst, hlast, hfx, hxl => by
    cases hfirst
    rcases Nat.lt_or_ge x b.r.toNat with hxb | hbx
    · exact ⟨0, a, b, rfl, rfl, hfx, Nat.le_of_lt hxb, .inr hxb⟩
    · obtain ⟨i, a', b', ha, hb, hax, hxb, hmax⟩ :=
        exists_bracket (table := b :: c :: rest) (by simp) rfl hlast hbx hxl
      exact ⟨i + 1, a', b', ha, hb, hax, hxb, hmax.imp_left (congrArg (· + 1))⟩

/-- A bracket that is the last one, or whose right key is above the ohms value, is the one R196 chooses: no later bracket has
its left key at most the ohms value. -/
theorem le_bracket (hinc : tableIncreasing table = true) (hb : table[i + 1]? = some b)
    (hmax : i + 2 = table.length ∨ x < b.r.toNat) {c : Sample} (hc : table[j]? = some c) (hj : j + 1 < table.length)
    (hcx : c.r.toNat ≤ x) : j ≤ i := by
  refine Nat.le_of_not_lt fun hij => ?_
  have hbc : b.r.toNat ≤ c.r.toNat := key_le_key hinc hb hc hij
  omega

/-! The function `Lookup` (R196). -/

theorem lookupTable_eq (hfirst : table.head? = some first) (hlast : table.getLast? = some last) (x : Nat) :
    lookupTable table x = if x < first.r.toNat then (first.t.toInt, true)
      else if last.r.toNat < x then (last.t.toInt, true) else (inTable table x, false) := by
  simp only [lookupTable, hfirst, hlast]

/-- OOR is 1 exactly outside the table (R198). -/
theorem lookupTable_oor_iff (hfirst : table.head? = some first) (hlast : table.getLast? = some last) :
    (lookupTable table x).2 = true ↔ x < first.r.toNat ∨ last.r.toNat < x := by
  rw [lookupTable_eq hfirst hlast]
  split
  next hbelow => simp [hbelow]
  next hbelow =>
    split
    next habove => simp [habove]
    next habove => simp [hbelow, habove]

theorem lookupTable_of_below (hfirst : table.head? = some first) (hlast : table.getLast? = some last)
    (hx : x < first.r.toNat) : lookupTable table x = (first.t.toInt, true) := by
  rw [lookupTable_eq hfirst hlast, if_pos hx]

theorem lookupTable_of_above (hinc : tableIncreasing table = true) (hfirst : table.head? = some first)
    (hlast : table.getLast? = some last) (hx : last.r.toNat < x) : lookupTable table x = (last.t.toInt, true) := by
  have hle : first.r.toNat ≤ last.r.toNat := key_le_lastKey hinc hlast (List.head?_eq_getElem? ▸ hfirst)
  rw [lookupTable_eq hfirst hlast, if_neg (by omega), if_pos hx]

/-- In any bracket that holds the ohms value the lookup interpolates, and does not clamp (R199). -/
theorem lookupTable_of_bracket (hinc : tableIncreasing table = true) (ha : table[i]? = some a) (hb : table[i + 1]? = some b)
    (hax : a.r.toNat ≤ x) (hxb : x ≤ b.r.toNat) : lookupTable table x = (interpolate a b x, false) := by
  have hne : table ≠ [] := by
    rintro rfl
    cases ha
  have hfirst := List.head?_eq_some_head hne
  have hlast := List.getLast?_eq_some_getLast hne
  have hfx := Nat.le_trans (firstKey_le hinc hfirst ha) hax
  have hxl := Nat.le_trans hxb (key_le_lastKey hinc hlast hb)
  rw [lookupTable_eq hfirst hlast, if_neg (Nat.not_lt.mpr hfx), if_neg (Nat.not_lt.mpr hxl), inTable_of_bracket hinc ha hb hax hxb]

/-- What a lookup can return: a table entry's temperature, clamped, or the interpolation in a bracket that holds the ohms
value. -/
inductive LookupResult (table : List Sample) (x : Nat) : Prop where
  | clamped (c : Sample) (mem : c ∈ table) (eq : lookupTable table x = (c.t.toInt, true))
  | inside (i : Nat) (a b : Sample) (left : table[i]? = some a) (right : table[i + 1]? = some b) (le : a.r.toNat ≤ x)
      (ge : x ≤ b.r.toNat) (eq : lookupTable table x = (interpolate a b x, false))

theorem lookupTable_result (hlen : 2 ≤ table.length) (hinc : tableIncreasing table = true) (x : Nat) :
    LookupResult table x := by
  have hne : table ≠ [] := List.ne_nil_of_length_pos (by omega)
  have hfirst := List.head?_eq_some_head hne
  have hlast := List.getLast?_eq_some_getLast hne
  rcases Nat.lt_or_ge x (table.head hne).r.toNat with hbelow | hfx
  · exact .clamped _ (List.head_mem hne) (lookupTable_of_below hfirst hlast hbelow)
  rcases Nat.lt_or_ge (table.getLast hne).r.toNat x with habove | hxl
  · exact .clamped _ (List.getLast_mem hne) (lookupTable_of_above hinc hfirst hlast habove)
  obtain ⟨i, a, b, ha, hb, hax, hxb, -⟩ := exists_bracket hlen hfirst hlast hfx hxl
  exact .inside i a b ha hb hax hxb (lookupTable_of_bracket hinc ha hb hax hxb)

/-- A lookup's result is an s32, so TEMP does not overflow (R197). -/
theorem toInt_lookupTemp {p : Params} (hlegal : p.legal = true) (x : Word) :
    (lookupTemp p x).toInt = (lookupTable p.table x.toNat).1 := by
  obtain ⟨hlen, hinc⟩ := Params.legal_table hlegal
  cases lookupTable_result hlen hinc x.toNat with
  | clamped c _ eq => rw [lookupTemp, eq, BitVec.ofInt_toInt]
  | inside i a b _ _ le ge eq =>
    have hbetween := interpolate_between le ge
    have hrange (w : Word) : -2 ^ 31 ≤ w.toInt ∧ w.toInt < 2 ^ 31 := ⟨BitVec.le_toInt w, BitVec.toInt_lt⟩
    have ha := hrange a.t
    have hb := hrange b.t
    rw [lookupTemp, eq, BitVec.toInt_ofInt_eq_self (by decide) (by omega) (by omega)]

end Sys2Proof.Machine
end

section
/-! The lookup engine and the command LOOKUP. -/

open Sys2Proof Sys2Proof.Machine

/-- Settles O47: the search returns the interpolation in the bracket it stops at, which is the last one with its key at most the
ohms value. -/
theorem lookupUsesBracket : Obligations.LookupUsesBracket := by
  unfold Obligations.LookupUsesBracket
  intro table x first last hlen hinc hfirst hlast
  refine ⟨lookupTable_of_below hfirst hlast, lookupTable_of_above hinc hfirst hlast, fun hfx hxl => ?_⟩
  obtain ⟨i, a, b, ha, hb, hax, hxb, hmax⟩ := exists_bracket hlen hfirst hlast hfx hxl
  exact ⟨i, a, b, ha, hb, hax, fun j c hc hj hcx => le_bracket hinc hb hmax hc hj hcx,
    lookupTable_of_bracket hinc ha hb hax hxb⟩

/-- Settles O50: both keys of a bracket give the temperature that the interpolation has there. -/
theorem bracketChoiceImmaterial : Obligations.BracketChoiceImmaterial := by
  unfold Obligations.BracketChoiceImmaterial
  intro table x i a b hinc ha hb hax hxb
  have hkeys : a.r.toNat < b.r.toNat := key_lt_key hinc ha hb i.lt_succ_self
  rw [lookupTable_of_bracket hinc ha hb hax hxb]
  refine ⟨rfl, ?_, ?_⟩
  · rintro rfl
    rw [interpolate_leftKey]
  · rintro rfl
    rw [interpolate_rightKey hkeys]

/-- Settles O48: a part of the temperature difference, at most the whole, added to the left temperature. -/
theorem lookupNeverOverflows : Obligations.LookupNeverOverflows := by
  unfold Obligations.LookupNeverOverflows
  intro p x hlegal
  obtain ⟨hlen, hinc⟩ := Params.legal_table hlegal
  rw [toInt_lookupTemp hlegal]
  refine ⟨rfl, fun i a b ha hb hax hxb => ⟨natAbs_tdiv_le (by omega) (by omega) _, ?_⟩, fun hoor => ?_⟩
  · rw [lookupTable_of_bracket hinc ha hb hax hxb]
    exact interpolate_between hax hxb
  · cases lookupTable_result hlen hinc x.toNat with
    | clamped c mem eq => exact ⟨c, mem, by rw [eq]⟩
    | inside i a b _ _ _ _ eq => simp [lookupOor, eq] at hoor

/-- Settles O46: one commit, with OK, of the latched operand looked up. -/
theorem lookupCommits : Obligations.LookupCommits := by
  unfold Obligations.LookupCommits
  intro s
  rw [exec, execLookup, State.finish, stickyAfter_ok]
  rfl

/-- Settles O49: what LOOKUP commits, with the lookup clamped. -/
theorem lookupClamps : Obligations.LookupClamps := by
  unfold Obligations.LookupClamps
  intro s first last hlegal hfirst hlast
  obtain ⟨-, hinc⟩ := Params.legal_table hlegal
  refine ⟨_, lookupCommits s, rfl, fun hbelow => ?_, fun habove => ?_, lookupTable_oor_iff hfirst hlast⟩
  · rw [lookupTable_of_below hfirst hlast hbelow, BitVec.ofInt_toInt]
  · rw [lookupTable_of_above hinc hfirst hlast habove, BitVec.ofInt_toInt]

end

section
/-! MEASURE, state by state (R215 to R218). -/

namespace Sys2Proof.Machine

open Sys2Proof Sys2Proof.Certificates

/-- Out of UNCONFIGURED MEASURE is a command of two transactions, READ_RAW's with another commit. -/
theorem exec_measure_of_configured {s : State} (h : s.status.state ≠ .unconfigured) (u : State) (hu : u.status = s.status) :
    exec .measure u =
      .next (twoTransactions .full [0x01#8, 0x00#8] .full [0x02#8, 0x00#8] (State.raise .io) commitMeasure u) := by
  rw [exec, execMeasure, refusedByState_eq_false (by rwa [hu])]
  rfl

/-- The raw value is the MSB byte times 256 plus the LSB byte (R69). -/
theorem toNat_raw16 (msb lsb : Byte) : (raw16 msb lsb).toNat = msb.toNat * 256 + lsb.toNat := by
  rw [raw16, BitVec.toNat_append, ← Nat.shiftLeft_add_eq_or_of_lt lsb.isLt, Nat.shiftLeft_eq]

end Sys2Proof.Machine
end

section
/-! MEASURE, from its issue to its end. -/

open Sys2Proof Sys2Proof.Machine Sys2Proof.Certificates

/-- Settles O53: two reads that complete, and one commit of the value made of their second bytes, decoded and looked up. -/
theorem measureSucceeds : Obligations.MeasureSucceeds := by
  unfold Obligations.MeasureSucceeds
  intro s m0 m1 l0 l1 ohms hs hstate ha hb hohms
  have hdecoded : decodedOhms s.params.cal (raw16 m1 l1) = ohms := by
    rw [decodedOhms_eq_ofNat, code15_eq_div, toNat_raw16, hohms]
  obtain ⟨s1, s2, h1, h2, h3⟩ := exec_both_done (fun u _ => exec_measure_of_configured hstate u) hs ha hb
  refine ⟨s1, s2, h1, h2, h3.trans (congrArg _ ?_)⟩
  rw [txDone_txDone_eq_afterBus hs, commitMeasure, measuredOhms, commitRaw, Opl.rawRead, faultBit_raw16, State.finish,
    stickyAfter_ok, ← hdecoded]
  rfl

/-- Settles O54: STATE refuses before a transaction, and a read that fails is the last. -/
theorem measureErrors : Obligations.MeasureErrors := by
  unfold Obligations.MeasureErrors
  intro s hs
  refine ⟨fun hstate => ?_, fun hstate ha => ?_, fun m0 m1 hstate ha hb => ?_⟩
  · have hrefused : refusedByState s = true := by simp [refusedByState, hs.phase, hstate]
    rw [exec, execMeasure, if_pos hrefused, State.raise_eq, finish_of_error rfl]
  · obtain ⟨s1, h1, h2⟩ := exec_first_failed (fun u _ => exec_measure_of_configured hstate u) hs ha
    refine ⟨s1, h1, h2.trans (congrArg _ ?_)⟩
    rw [txFail_eq_afterBus, State.raise_eq, finish_of_error rfl]
    rfl
  · obtain ⟨s1, s2, h1, h2, h3⟩ := exec_second_failed (fun u _ => exec_measure_of_configured hstate u) hs ha hb
    refine ⟨s1, s2, h1, h2, h3.trans (congrArg _ ?_)⟩
    rw [txDone_txFail_eq_afterBus hs, State.raise_eq, finish_of_error rfl]
    rfl

end

section
/-! The run of a command of two reads, and of one of a commit alone (R80, R216). -/

namespace Sys2Proof.Machine

open Sys2Proof

/-- A command whose first step is its commit has ended then (R80). -/
theorem commandRun_of_commit {s t : State} {w : Word} {i : Instr} (hr : s.rst = false) (hx : s.xf = none)
    (hd : decodeWord w = .command i) (he : exec i (s.issue w) = .next t) (hi : t.phase = .idle) :
    commandRun w s = .next t := by
  rw [commandRun, controllerTurns_succ_of_command (controllerReady_issue w hr hx) hd he]
  exact controllerTurns_of_not_ready (by simp [State.controllerReady, hi]) 2

/-- A transaction of a command that ends OK was answered, if a failed one raises IO: else it ends with IO, or hangs. -/
theorem answered_of_ok {i : Instr} {kind : TxKind} {tx : List Byte} {s t : State} {k : Nat} (hrun : s.Running i)
    (hfail : exec i (s.txFail kind tx) = .next ((s.txFail kind tx).raise .io))
    (h : controllerTurns (k + 1) (s.transact kind tx) = .next t) (hi : t.phase = .idle) (ho : t.status.err = .ok) :
    ∃ r0 r1, s.spiAnswer kind tx = .done r0 r1 := by
  obtain ⟨-, hp, -⟩ := s.controllerReady_iff.mp hrun.ready
  rcases transact_cases kind tx s with ⟨r0, r1, ha, _⟩ | ⟨_, e⟩ | ⟨_, e⟩
  · exact ⟨r0, r1, ha⟩
  · have hfailed := hrun.txFail kind tx
    rw [e, controllerTurns_succ_of_command hfailed.ready hfailed.dec hfail,
      controllerTurns_of_not_ready (by simp [State.controllerReady])] at h
    cases h
    simp at ho
  · rw [e, controllerTurns_of_not_ready (by simp [State.controllerReady])] at h
    cases h
    exact absurd hi hp

section TwoReads

variable {i : Instr} {w : Word} {kind1 kind2 : TxKind} {tx1 tx2 : List Byte} {commit : State → State} {s : State}
  (hr : s.rst = false) (hx : s.xf = none) (hd : decodeWord w = .command i)
  (hexec : ∀ u : State, u.status = (s.issue w).status →
    exec i u = .next (twoTransactions kind1 tx1 kind2 tx2 (State.raise .io) commit u))
include hr hx hd hexec

/-- The run begins with the first transaction. -/
theorem commandRun_first : commandRun w s = controllerTurns 2 ((s.issue w).transact kind1 tx1) := by
  refine controllerTurns_succ_of_command (controllerReady_issue w hr hx) hd ?_ 2
  rw [hexec _ rfl, twoTransactions_first rfl rfl]

/-- After a first transaction that completed the run goes on with the second. -/
theorem commandRun_second {r0 r1 : Byte} (ha : (s.issue w).spiAnswer kind1 tx1 = .done r0 r1) :
    commandRun w s = controllerTurns 1 (((s.issue w).txDone kind1 tx1 ⟨r0, r1⟩).transact kind2 tx2) := by
  have hrun := (running_issue hr hx hd).txDone kind1 tx1 ⟨r0, r1⟩
  rw [commandRun_first hr hx hd hexec, transact_of_done ha]
  refine controllerTurns_succ_of_command hrun.ready hrun.dec ?_ 1
  rw [hexec _ (by simp), twoTransactions_second (by simp) rfl]

/-- Two transactions that complete are followed by the commit, which ends the run. -/
theorem commandRun_both_done {r0 r1 q0 q1 : Byte} (ha : (s.issue w).spiAnswer kind1 tx1 = .done r0 r1)
    (hb : ((s.issue w).txDone kind1 tx1 ⟨r0, r1⟩).spiAnswer kind2 tx2 = .done q0 q1) :
    commandRun w s =
      .next (commit (((s.issue w).txDone kind1 tx1 ⟨r0, r1⟩).txDone kind2 tx2 ⟨q0, q1⟩)) := by
  have hrun := ((running_issue hr hx hd).txDone kind1 tx1 ⟨r0, r1⟩).txDone kind2 tx2 ⟨q0, q1⟩
  rw [commandRun_second hr hx hd hexec ha, transact_of_done hb]
  refine controllerTurns_succ_of_command hrun.ready hrun.dec ?_ 0
  rw [hexec _ (by simp), twoTransactions_commit (by simp) rfl]

/-- A run that ends OK had both its transactions answered (R115). -/
theorem both_answered_of_ok {t : State} (h : commandRun w s = .next t) (hi : t.phase = .idle) (ho : t.status.err = .ok) :
    ∃ r0 r1 q0 q1, (s.issue w).spiAnswer kind1 tx1 = .done r0 r1 ∧
      ((s.issue w).txDone kind1 tx1 ⟨r0, r1⟩).spiAnswer kind2 tx2 = .done q0 q1 := by
  have hfail (u : State) (kind : TxKind) (tx : List Byte) (hu : u.status = (s.issue w).status) :
      exec i (u.txFail kind tx) = .next ((u.txFail kind tx).raise .io) := by
    rw [hexec _ (by simpa using hu), twoTransactions_of_failed rfl]
  have hrun := running_issue hr hx hd
  obtain ⟨r0, r1, ha⟩ := answered_of_ok hrun (hfail _ _ _ rfl) (commandRun_first hr hx hd hexec ▸ h) hi ho
  obtain ⟨q0, q1, hb⟩ := answered_of_ok (hrun.txDone kind1 tx1 ⟨r0, r1⟩) (hfail _ _ _ rfl)
    (commandRun_second hr hx hd hexec ha ▸ h) hi ho
  exact ⟨r0, r1, q0, q1, ha, hb⟩

end TwoReads

/-- DECODE with ARG = RAW decodes the raw value of RAW (R34, R95, R180). -/
theorem commandRun_decode_raw {s : State} (hr : s.rst = false) (hx : s.xf = none) :
    commandRun 0x40000000#32 { s with arg := Reg.raw.read s } =
      .next { (({ s with arg := Reg.raw.read s }.issue 0x40000000#32).finish .ok).setFault (faultBit s.raw) with
        ohms := decodedOhms s.params.cal s.raw } := by
  have hoperand : ({ s with arg := Reg.raw.read s }.issue 0x40000000#32).opl.rawOperand = s.raw := by
    rw [State.issue_opl, Opl.rawOperand, Reg.read, rawWord_eq_append, BitVec.extractLsb'_append_eq_right]
  refine commandRun_of_commit (i := .decode) hr hx rfl ?_ rfl
  rw [exec, execDecode, hoperand]
  rfl

end Sys2Proof.Machine
end

section
/-! MEASURE and the three commands it fuses. -/

open Sys2Proof Sys2Proof.Machine

/-- Settles O55: an OK end of MEASURE had both reads answered, so READ_RAW commits the same raw value, which DECODE and LOOKUP
then work on as MEASURE's commit does. -/
theorem measureEqualsThreeCommands : Obligations.MeasureEqualsThreeCommands := by
  unfold Obligations.MeasureEqualsThreeCommands
  intro s m hr hx h hi ho
  have hstate : s.status.state ≠ .unconfigured := by
    have houtcome : ProtocolOutcome .measure s.status.state m.status :=
      controllerTurns_protocolOutcome 3 (s.issue 0x60000000#32) (running_issue hr hx rfl) (fun _ _ => rfl) h hi
    rcases houtcome with ⟨_, hconfigured, _⟩ | ⟨herr, _⟩ | ⟨_, hconfigured, _⟩
    · exact hconfigured
    · simp [ho] at herr
    · exact hconfigured
  have hmeasure := exec_measure_of_configured (s := s.issue 0x60000000#32) hstate
  have hread := exec_readRaw_of_configured (s := s.issue 0x30000000#32) hstate
  obtain ⟨m0, m1, l0, l1, ha, hb⟩ := both_answered_of_ok hr hx rfl hmeasure h hi ho
  obtain rfl := Host.Outcome.next.inj (h.symm.trans (commandRun_both_done hr hx rfl hmeasure ha hb))
  -- READ_RAW is answered alike: an answer depends on the history and the draws, not on the word issued (R72).
  exact ⟨rfl, _, _, _, commandRun_both_done hr hx rfl hread ha hb, commandRun_decode_raw hr rfl,
    commandRun_of_commit hr rfl rfl rfl rfl, rfl, rfl, rfl, rfl, rfl, rfl, rfl⟩

end

section
/-! How a step ends a command: with OK, as a SOFT_RESET, or with an error, and what that writes (R80, R231 to R233, R243). -/

namespace Sys2Proof.Machine

open Sys2Proof

/-- `s` after the commit of an error: the shared commit with STICKY set, and STATE, CFGW and CFGRB at the values given. -/
def State.errored (code : ErrCode) (p : ProtoState) (cfgw cfgrb : Byte) (s : State) : State :=
  { s with
    status := { s.status with busy := false, state := p, sticky := true, err := code }
    phase := .idle
    cfgw := cfgw
    cfgrb := cfgrb }

/-- How a command can end with an error: CONFIGURE writes STATE, CFGW and, with VERIFY, CFGRB (R149, R150), every other command
and an illegal word only what all commits write (R233). -/
inductive ErrorCommit (d : Decoded) (s t : State) : Prop where
  | raised (code : ErrCode) (other : ∀ cfg, d ≠ .command (.configure cfg))
      (eq : t = s.errored code s.status.state s.cfgw s.cfgrb)
  | configure (cfg : Cfg) (code : ErrCode) (rb : Byte) (dec : d = .command (.configure cfg))
      (outcome : code = .io ∧ rb = s.cfgrb ∨ code = .verify ∧ rb = s.opl.rx2.b1)
      (eq : t = s.errored code .unconfigured (pack s.params cfg) rb)

/-- How the command of a word, decoded as `d`, can end. -/
inductive CommandEnd (d : Decoded) (s t : State) : Prop where
  | succeeded (ok : t.status.err = .ok) (sticky : t.status.sticky = s.status.sticky)
  | softReset (dec : d = .command .softReset) (ok : t.status.err = .ok)
  | failed (error : ErrorCommit d s t)

theorem ErrorCommit.sticky {d : Decoded} {s t : State} (h : ErrorCommit d s t) : t.status.sticky = true := by
  cases h with
  | raised _ _ eq | configure _ _ _ _ _ eq => rw [eq, State.errored]

/-- Only SOFT_RESET ends with a STICKY that was 1 at 0 (R28, R232). -/
theorem CommandEnd.softReset_of_cleared {d : Decoded} {s t : State} (h : CommandEnd d s t) (hs : s.status.sticky = true)
    (ht : t.status.sticky = false) : d = .command .softReset ∧ t.status.err = .ok := by
  cases h with
  | softReset dec ok => exact ⟨dec, ok⟩
  | succeeded _ sticky => simp [hs, ht] at sticky
  | failed error => exact absurd error.sticky (by simp [ht])

theorem CommandEnd.error {d : Decoded} {s t : State} (h : CommandEnd d s t) (herr : t.status.err ≠ .ok) :
    ErrorCommit d s t := by
  cases h with
  | succeeded ok _ | softReset _ ok => exact absurd ok herr
  | failed error => exact error

/-- `raise` in any command but CONFIGURE ends it so (R231, R233). -/
theorem commandEnd_raise {d : Decoded} {code : ErrCode} (s : State) (hd : ∀ cfg, d ≠ .command (.configure cfg))
    (hc : code.isError = true) : CommandEnd d s (s.raise code) :=
  .failed (.raised code hd (finish_of_error hc s))

/-- A one-transaction command that has ended took the commit of its IO error or its own. -/
theorem oneTransaction_of_idle {kind : TxKind} {tx : List Byte} {commit : State → State} {s : State} (hp : s.phase ≠ .idle)
    (hi : (oneTransaction kind tx commit s).phase = .idle) :
    oneTransaction kind tx commit s = s.raise .io ∨ oneTransaction kind tx commit s = commit s := by
  rcases oneTransaction_cases kind tx commit s with ⟨_, e⟩ | ⟨_, _, e⟩ | ⟨_, _, e⟩
  · exact .inl e
  · exact absurd (e ▸ hi) (transact_phase_ne_idle kind tx hp)
  · exact .inr e

/-- CONFIGURE's commit after a failed transaction (R149). -/
theorem commandEnd_configureFails (cfg : Cfg) (s : State) :
    CommandEnd (.command (.configure cfg)) s (configureFails (pack s.params cfg) s) := by
  refine .failed (.configure cfg .io s.cfgrb rfl (.inl ⟨rfl, rfl⟩) ?_)
  rw [configureFails, State.raise_eq, finish_of_error rfl]
  rfl

/-- CONFIGURE's commit after two completed transactions: OK, or VERIFY with the byte read back in CFGRB (R148, R150). -/
theorem commandEnd_configureCommits (cfg : Cfg) (s : State) :
    CommandEnd (.command (.configure cfg)) s (configureCommits (pack s.params cfg) s) := by
  unfold configureCommits
  split
  · exact .succeeded rfl (stickyAfter_ok _)
  · refine .failed (.configure cfg .verify s.opl.rx2.b1 rfl (.inr ⟨rfl, rfl⟩) ?_)
    rw [State.raise_eq, finish_of_error rfl]
    rfl

/-- The inversion of a command's last step. -/
theorem exec_commandEnd {i : Instr} {s t : State} (h : exec i s = .next t) (hp : s.phase ≠ .idle) (hi : t.phase = .idle) :
    CommandEnd (.command i) s t := by
  cases i with
  | configure cfg =>
    cases h
    rcases twoTransactions_of_idle hp hi with e | e <;> rw [e]
    · exact commandEnd_configureFails cfg s
    · exact commandEnd_configureCommits cfg s
  | readRaw | measure =>
    cases h
    by_cases hrefused : refusedByState s = true
    · rw [if_pos hrefused]
      exact commandEnd_raise s nofun rfl
    · rw [if_neg hrefused] at hi ⊢
      rcases twoTransactions_of_idle hp hi with e | e <;> rw [e]
      · exact commandEnd_raise s nofun rfl
      · exact .succeeded rfl (stickyAfter_ok _)
  | rwHalf | xfer | writeReg | readReg =>
    cases h
    rcases oneTransaction_of_idle hp hi with e | e <;> rw [e]
    · exact commandEnd_raise s nofun rfl
    · exact .succeeded rfl (stickyAfter_ok _)
  | isReady =>
    rw [exec, execIsReady] at h
    split at h
    · cases h
      exact .succeeded rfl (stickyAfter_ok _)
    · cases h
      exact commandEnd_raise s nofun rfl
  | decode | lookup =>
    cases h
    exact .succeeded rfl (stickyAfter_ok _)
  | softReset =>
    cases h
    exact .softReset rfl rfl

/-- What a step of the machine does to a running command and to STICKY. -/
inductive EndingStep (s t : State) : Prop where
  | goesOn (sticky : t.status.sticky = s.status.sticky) (running : s.phase ≠ .idle → t.phase ≠ .idle)
  | resets (turn : ∃ rest, s.turns = .rst true :: rest) (rst : t.rst = true)
  | ends (rest : List Turn) (ready : s.controllerReady = true) (idle : t.phase = .idle)
      (how : CommandEnd (decodeWord s.opl.w) { s with turns := rest } t)

/-- No access of the host touches STICKY (R64). -/
theorem HostStep.sticky {s t : State} (h : HostStep s t) : t.status.sticky = s.status.sticky := by
  cases h <;> subst t <;> rfl

/-- The inversion of `step` for the end of a command. -/
theorem step_ending {s t : State} (h : step s = .next t) : EndingStep s t := by
  obtain ⟨-, h⟩ := step_cases h
  cases h with
  | reset level rest turn eq =>
    subst eq
    cases level with
    | true => exact .resets ⟨rest, turn⟩ rfl
    | false => exact .goesOn rfl id
  | illegal rest why _ ready dec eq =>
    subst eq
    exact .ends rest ready rfl (dec ▸ commandEnd_raise _ nofun rfl)
  | waits rest eq => subst eq; exact .goesOn rfl id
  | host rest h => exact .goesOn h.sticky h.protocol.2
  | command rest i _ ready dec eq =>
    have hp : s.phase ≠ .idle := (s.controllerReady_iff.mp ready).2.1
    cases exec_step eq with
    | transaction kind tx _ _ _ _ e =>
      subst e
      obtain ⟨status, -⟩ := transact_registers kind tx { s with turns := rest }
      exact .goesOn (by rw [status]) fun _ => transact_phase_ne_idle kind tx hp
    | commit idle _ _ => exact .ends rest ready idle (dec ▸ exec_commandEnd eq hp idle)

/-- A step that ends a command with an error, out of reset, is an error's commit. -/
theorem step_errorCommit {s t : State} (h : step s = .next t) (hp : s.phase ≠ .idle) (hi : t.phase = .idle)
    (hr : t.rst = false) (herr : t.status.err ≠ .ok) :
    ∃ rest, ErrorCommit (decodeWord s.opl.w) { s with turns := rest } t := by
  cases step_ending h with
  | goesOn _ running => exact absurd hi (running hp)
  | resets _ rst => simp [hr] at rst
  | ends rest _ _ how => exact ⟨rest, how.error herr⟩

end Sys2Proof.Machine
end

section
/-! STICKY, and what the commit of an error changes. -/

open Sys2Proof Sys2Proof.Machine

/-- Settles O19: only reset and SOFT_RESET's commit leave STICKY at 0 where it was 1, and every error's commit sets it. -/
theorem stickyRecordsErrors : Obligations.StickyRecordsErrors := by
  unfold Obligations.StickyRecordsErrors
  intro s t h
  refine ⟨fun hs ht => ?_, fun hp hi hr herr => ?_⟩
  · cases step_ending h with
    | goesOn sticky _ => simp [hs, ht] at sticky
    | resets turn _ => exact .inl turn
    | ends rest ready idle how =>
      obtain ⟨dec, ok⟩ := how.softReset_of_cleared hs ht
      exact .inr ⟨ready, dec, idle, ok⟩
  · obtain ⟨_, herror⟩ := step_errorCommit h hp hi hr herr
    exact herror.sticky

/-- Settles O56: an error's commit is the shared one, and CONFIGURE's writes STATE, CFGW and, with VERIFY, CFGRB besides. -/
theorem erroringCommandChanges : Obligations.ErroringCommandChanges := by
  unfold Obligations.ErroringCommandChanges
  intro s t h hp hi hr herr
  obtain ⟨rest, herror⟩ := step_errorCommit h hp hi hr herr
  cases herror with
  | raised code other eq =>
    subst eq
    exact ⟨rfl, rfl, rfl, rfl, rfl, rfl, rfl, rfl, rfl, rfl, rfl, rfl, .inl ⟨rfl, rfl, rfl, other⟩⟩
  | configure cfg code rb dec outcome eq =>
    subst eq
    exact ⟨rfl, rfl, rfl, rfl, rfl, rfl, rfl, rfl, rfl, rfl, rfl, rfl, .inr ⟨cfg, dec, rfl, rfl, outcome⟩⟩

end

section
/-! A change of the reset input, and the host's accesses while RST is asserted (R260, R261). -/

namespace Sys2Proof.Machine

open Sys2Proof

theorem heldAnswer_eq_ite (held : Option Word) : heldAnswer held = if held = none then [] else [.busErr] := by
  cases held <;> rfl

/-- The turn of the reset input is taken in every state of a legal instance (R261). -/
theorem step_rst {s : State} {level : Bool} {rest : List Turn} (hl : s.params.legal = true)
    (ht : s.turns = .rst level :: rest) : step s = .next ({ s with turns := rest }.resetTurn level) := by
  simp only [step, agentStep, hl, if_true, ht]

theorem assertReset_atReset (s : State) : s.assertReset.AtReset where
  regs := ⟨rfl, rfl, rfl, rfl, rfl, rfl, rfl, rfl⟩
  status := rfl
  phase := rfl
  bus := ⟨rfl, rfl, rfl, rfl⟩
  held := rfl

/-- Releasing RST changes no other field, so a block at its reset values stays there (R260). -/
theorem State.AtReset.released {s : State} (h : s.AtReset) (rest : List Turn) :
    ({ s with turns := rest }.resetTurn false).AtReset where
  regs := h.regs
  status := h.status
  phase := h.phase
  bus := h.bus
  held := h.held

/-- In reset every write is a bus error (R260). -/
theorem writeWindow_reset {s : State} (h : s.rst = true) (off n : Nat) (v : Word) :
    writeWindow off n v s = s.answer .busErr := by
  simp [writeWindow, h]

section Accesses

variable {s : State} {rest : List Turn} {prog : List HostOp}
  (hl : s.params.legal = true) (hr : s.rst = true) (hn : s.held = none) (ht : s.turns = .host :: rest)
include hl hr hn ht

/-- In reset an access of the window is answered BUSERR, and the host goes on with its program (R260). -/
theorem step_access_in_reset {addr n : Nat} (hlow : s.params.base ≤ addr) (hhigh : addr < s.params.base + 64)
    (hp : s.program = .read addr n :: prog ∨ ∃ v, s.program = .write addr n v :: prog) :
    step s = .next ({ s with turns := rest, program := prog }.answer .busErr) := by
  obtain ⟨off, rfl⟩ := Nat.exists_eq_add_of_le hlow
  have hoff : off < 64 := Nat.lt_of_add_lt_add_left hhigh
  rcases hp with hp | ⟨v, hp⟩
  · rw [step_hostRead hl hn ht hoff hp, readAnswer_reset s off n hr]
  · rw [step_hostWrite hl hn ht hoff hp, writeWindow_reset]
    exact hr

/-- In reset an access of a host loop is answered BUSERR, which ends no loop (R101, R260). -/
theorem step_loop_in_reset {next : List HostOp}
    (hp : s.program = .wait :: prog ∧ next = .wait :: prog ∨
      s.program = .pollReady :: prog ∧ next = .wait :: .pollCheck :: prog ∨
      s.program = .pollCheck :: prog ∧ next = .pollReady :: prog) :
    step s = .next ({ s with turns := rest, program := next }.answer .busErr) := by
  have hstatus : statusAnswer { s with turns := rest } = .busErr := readAnswer_reset _ _ _ hr
  rcases hp with ⟨hp, rfl⟩ | ⟨hp, rfl⟩ | ⟨hp, rfl⟩
  · rw [step_hostOperation hl hn ht hp, hostOperation, hstatus]
    rfl
  · rw [step_pollReady hl hn ht hp, writeWindow_reset]
    exact hr
  · rw [step_hostOperation hl hn ht hp, hostOperation, hstatus]
    rfl

end Accesses

end Sys2Proof.Machine
end

section
/-! The legal column of R7. -/

namespace Sys2Proof.Machine

open Sys2Proof

/-- An increasing table is one in which every key is below all later ones (R41). -/
theorem tableIncreasing_iff_keys {table : List Sample} : tableIncreasing table = true ↔
    ∀ (j k : Nat) (a b : Sample), j < k → table[j]? = some a → table[k]? = some b → a.r.toNat < b.r.toNat := by
  refine ⟨fun hinc j k a b hjk ha hb => key_lt_key hinc ha hb hjk, fun hkeys => ?_⟩
  induction table with
  | nil => rfl
  | cons a rest ih =>
    cases rest with
    | nil => rfl
    | cons b rest =>
      refine (tableIncreasing_cons_cons a b rest).mpr ⟨hkeys 0 1 a b (by decide) rfl rfl, ih fun j k c d hjk hc hd => ?_⟩
      exact hkeys (j + 1) (k + 1) c d (Nat.succ_lt_succ hjk) hc hd

/-- The conditions of the legal column, one by one (R7). -/
theorem Params.legal_iff (p : Params) : p.legal = true ↔
    2 ≤ p.table.length ∧ p.table.length ≤ 65535 ∧ tableIncreasing p.table = true ∧ 0 < p.fSclk ∧ p.base % 64 = 0 := by
  simp only [Params.legal, Bool.and_eq_true, decide_eq_true_eq, and_assoc]

theorem step_of_illegalInstance {s : State} (h : s.params.legal = false) : step s = .refused .illegalInstance := by
  simp [step, agentStep, h]

end Sys2Proof.Machine
end

section
/-! Reset, the window in reset, and illegal instances. -/

open Sys2Proof Sys2Proof.Machine

/-- Settles O8: the reset input's turn asks nothing of the state but a legal instance; a transaction in flight outlives every
other turn. -/
theorem resetFromAnyState : Obligations.ResetFromAnyState := by
  unfold Obligations.ResetFromAnyState
  refine ⟨fun s rest hl ht => ?_, fun s t hinv hx h hfree => ?_⟩
  · exact ⟨_, step_rst hl ht, assertReset_atReset _, rfl, rfl, rfl, congrArg _ (heldAnswer_eq_ite s.held), rfl, rfl, rfl, rfl,
      rfl⟩
  · obtain ⟨-, hends⟩ := hangLastsUntilReset
    refine (hends s t hinv hx h).resolve_right fun ⟨hflight, _⟩ => ?_
    exact hx (hflight.symm.trans hfree)

/-- Settles O9: with RST asserted the invariant puts the block at its reset values, so nothing is held and the window answers. -/
theorem windowInReset : Obligations.WindowInReset := by
  unfold Obligations.WindowInReset
  refine ⟨fun p => (powerOnValues p).1, fun s hinv hr => ?_⟩
  have hreset : s.AtReset := hinv.reset hr
  refine ⟨hreset, fun addr n rest prog ht hlow hhigh hp => ?access, fun rest prog next ht hp => ?loop, fun rest ht => ?release⟩
  case access => exact step_access_in_reset hinv.legal hr hreset.held ht hlow hhigh hp
  case loop => exact step_loop_in_reset hinv.legal hr hreset.held ht hp
  case release =>
    obtain ⟨-, hcs, -, -⟩ := hreset.bus
    exact ⟨_, step_rst hinv.legal ht, rfl, hreset.released rest, hreset.phase, congrArg Status.state hreset.status, hcs⟩

/-- Settles O12: neighbours in order put the whole table in order; a step looks at the instance before anything else. -/
theorem illegalInstanceRefused : Obligations.IllegalInstanceRefused := by
  unfold Obligations.IllegalInstanceRefused
  exact ⟨fun p => by rw [Params.legal_iff, tableIncreasing_iff_keys], fun _ => step_of_illegalInstance⟩

end

section
/-! The encoder and the decoder, one after the other (R90, R92, R98). -/

namespace Sys2Proof

@[simp] theorem wireOf_bits (w : Wire) : wireOf w.bits = some w := by cases w <;> rfl

theorem Cfg.vField_reserved (c : Cfg) : c.vField.extractLsb' 1 2 = 0b00#2 := by
  simp (disch := decide) only [Cfg.vField, BitVec.extractLsb'_append_eq_of_le, BitVec.extractLsb'_append_eq_of_add_le]
  simp

/-- A configuration is decoded from its own V field (R94, R141). -/
@[simp] theorem decodeConfigure_vField (c : Cfg) : decodeConfigure c.vField = .command (.configure c) := by
  obtain ⟨vbias, cmode, oneShot, wire, filter⟩ := c.vField_fields
  simp only [decodeConfigure, c.vField_reserved, vbias, cmode, oneShot, wire, filter, wireOf_bits, ← Filter.eq_ite_bit]
  rfl

theorem decodeWord_encode {i : Instr} (h : i.wf = true) : decodeWord (encode i) = .command i := by
  cases i with
  | isReady | readRaw | decode | lookup | measure | softReset => rfl
  | configure | rwHalf | xfer => simp [decodeWord, encode, Instr.opc, Instr.aField, Instr.vField]
  | writeReg i v | readReg i =>
    have hindex : i.msb = false := by simpa [Instr.wf] using h
    simp [decodeWord, encode, Instr.opc, Instr.aField, Instr.vField, hindex]

/-- The fields that R96 asks of a command's word make the command well-formed. -/
theorem wf_of_legalFields {i : Instr} (h : LegalFields i.opc.toNat i.aField i.vField) : i.wf = true := by
  cases i with
  | configure | isReady | readRaw | decode | lookup | measure | rwHalf | xfer | softReset => rfl
  | writeReg i v | readReg i =>
    have hindex : i.msb = false := h.index (by simp [Instr.opc])
    rw [Instr.wf, hindex, Bool.not_false]

end Sys2Proof
end

section
/-! Decode and encode are each other's inverse. -/

open Sys2Proof

/-- Settles O2: row by row; the decoder reads back the fields that the encoder wrote. -/
theorem decodeOfEncode : Obligations.DecodeOfEncode := by
  unfold Obligations.DecodeOfEncode
  exact fun i h => decodeWord_encode h

/-- Settles O3: a command has the legal fields of its word, and RSV is zero, so the fields are the whole word. -/
theorem encodeOfDecode : Obligations.EncodeOfDecode := by
  unfold Obligations.EncodeOfDecode
  intro w i hd
  obtain ⟨opc, a, v, rsv, legal⟩ := fields_of_command hd
  rw [← opc, ← a, ← v] at legal
  exact ⟨wf_of_legalFields legal, by rw [encode, opc, a, v, cmdWord_fields w rsv]⟩

/-- Settles O1: the words of the table, evaluated. -/
theorem specWordsDecode : Obligations.SpecWordsDecode := by
  unfold Obligations.SpecWordsDecode
  exact ⟨rfl, rfl, rfl, rfl, rfl, rfl, rfl, rfl, ⟨.opcode, rfl⟩, ⟨.wire, rfl⟩, ⟨.index, rfl⟩⟩

end

section
/-! What keeps the invariant (R21, R26, R43 to R46, R260): an idle block, an issue, a transaction, and the world around the
block. -/

namespace Sys2Proof.Machine

open Sys2Proof

/-- An idle block with an idle bus meets the invariant, whatever its latch holds. -/
theorem inv_of_idle {s : State} (legal : s.params.legal = true) (phase : s.phase = .idle) (busy : s.status.busy = false)
    (bus : s.xf = none ∧ s.cs = true ∧ s.sclk = true ∧ s.mosi = s.params.mosiIdle) (reset : s.rst = true → s.AtReset) :
    s.Inv := by
  obtain ⟨xf, cs, sclk, mosi⟩ := bus
  exact {
    legal := legal
    busy := by simp [busy, phase]
    cs := by simp [cs, xf]
    flight := fun hx => absurd xf hx
    idleBus := fun _ => ⟨sclk, mosi⟩
    running := .inl phase
    step := by simp [phase]
    guarded := fun _ _ => by simp [phase]
    reset := reset }

/-- Out of reset the invariant asks nothing of the registers (R260). -/
theorem atReset_of_released {s : State} (hr : s.rst = false) : s.rst = true → s.AtReset := by
  simp [hr]

theorem State.AtReset.inv {s : State} (h : s.AtReset) (legal : s.params.legal = true) : s.Inv :=
  inv_of_idle legal h.phase (congrArg Status.busy h.status) h.bus fun _ => h

namespace State.Inv

variable {s : State}

/-- The world around the block is no part of the invariant. -/
theorem of_world (h : s.Inv) (program : List HostOp) (turns : List Turn) (answers : List Answer) :
    State.Inv { s with program := program, turns := turns, answers := answers } :=
  { h with reset := fun hr => { h.reset hr with } }

/-- Out of reset ARG and a held CMD write are no part of the invariant. -/
theorem of_inputs (h : s.Inv) (hr : s.rst = false) (arg : Word) (held : Option Word) :
    State.Inv { s with arg := arg, held := held } :=
  { h with reset := atReset_of_released hr }

/-- Between two transactions the bus is idle (R43, R45). -/
theorem bus (h : s.Inv) (hx : s.xf = none) :
    s.xf = none ∧ s.cs = true ∧ s.sclk = true ∧ s.mosi = s.params.mosiIdle :=
  ⟨hx, h.cs.mpr hx, h.idleBus hx⟩

/-- An issue out of reset while no command runs (R79). -/
theorem issue (h : s.Inv) (hr : s.rst = false) (hb : s.status.busy = false) (w : Word) : (s.issue w).Inv := by
  have hidle : s.phase = .idle := Classical.not_not.mp fun hp => by simp [h.busy.mpr hp] at hb
  have hx : s.xf = none := Classical.not_not.mp fun hx => h.flight hx hidle
  exact {
    legal := h.legal
    busy := by simp
    cs := h.cs
    flight := by simp
    idleBus := h.idleBus
    running := .inr ⟨rfl, rfl⟩
    step := Nat.zero_le _
    guarded := fun _ _ => rfl
    reset := atReset_of_released hr }

/-- RST changes: asserted it puts the block at its reset values, released it leaves it there or as it was (R260, R261). -/
theorem resetTurn (h : s.Inv) (level : Bool) : (s.resetTurn level).Inv := by
  cases level with
  | true => exact (assertReset_atReset s).inv h.legal
  | false => exact { h with reset := nofun }

/-- A commit leaves the bus idle and the block out of reset, as it found them (R80). -/
theorem commit {t : State} (h : s.Inv) (ready : s.controllerReady = true) (frame : CommitFrame s t) (idle : t.phase = .idle)
    (done : t.status.busy = false) : t.Inv := by
  obtain ⟨hr, -, hx⟩ := s.controllerReady_iff.mp ready
  obtain ⟨cs, sclk, mosi⟩ := frame.pins
  refine inv_of_idle (frame.params ▸ h.legal) idle done ?_ (atReset_of_released (frame.rst.trans hr))
  rw [frame.xf, cs, sclk, mosi, frame.params]
  exact h.bus hx

section Transaction

variable (h : s.Inv) (ready : s.controllerReady = true) (kind : TxKind) (tx : List Byte)
include h ready

/-- A completed transaction counts as one more of its command, which STATE has not refused (R21, R163, R218). -/
theorem txDone {i : Instr} (dec : decodeWord s.opl.w = .command i) (more : s.phase.step < transactionsOf i)
    (allowed : i = .readRaw ∨ i = .measure → s.status.state = .unconfigured → s.phase.step ≠ 0) (rx : Rx) :
    (s.txDone kind tx rx).Inv := by
  obtain ⟨hr, hp, -⟩ := s.controllerReady_iff.mp ready
  exact {
    legal := h.legal
    busy := by simpa using h.busy
    cs := by simp
    flight := by simp
    idleBus := fun _ => ⟨rfl, rfl⟩
    running := by
      obtain ⟨hphase, hcmd⟩ := h.running.resolve_left hp
      refine .inr ⟨?_, by simpa using hcmd⟩
      rw [State.txDone_phase, State.txDone_opl, Opl.store_w, Phase.step_advance hp, hphase]
      rfl
    step := by
      rw [State.txDone_phase, State.txDone_opl, Opl.store_w, Phase.step_advance hp, wordTransactions, dec]
      exact more
    guarded := fun hstate hread => by
      rw [State.txDone_opl, Opl.store_w] at hread
      have hi : i = .readRaw ∨ i = .measure := by simpa [dec] using hread
      exact absurd (h.guarded hstate hread) (allowed hi hstate)
    reset := atReset_of_released hr }

/-- A failed transaction changes the bus back and marks OPL, which the invariant does not look at (R115). -/
theorem txFail : (s.txFail kind tx).Inv := by
  obtain ⟨hr, -, -⟩ := s.controllerReady_iff.mp ready
  exact { h with
    cs := by simp
    flight := by simp
    idleBus := fun _ => ⟨rfl, rfl⟩
    reset := atReset_of_released hr }

/-- A hung transaction is the running command's, and CS stays at 0 (R46, R114). -/
theorem txHang : (s.txHang kind tx).Inv := by
  obtain ⟨hr, hp, -⟩ := s.controllerReady_iff.mp ready
  exact { h with
    cs := by simp
    flight := fun _ => hp
    idleBus := by simp
    reset := atReset_of_released hr }

end Transaction

/-- A step of the running command: a transaction of it, with one of its three outcomes, or its commit. -/
theorem execStep {i : Instr} {t : State} (h : s.Inv) (ready : s.controllerReady = true)
    (dec : decodeWord s.opl.w = .command i) (hstep : ExecStep i s t) : t.Inv := by
  cases hstep with
  | transaction kind tx _ more _ allowed eq =>
    subst eq
    rcases transact_cases kind tx s with ⟨_, _, _, e⟩ | ⟨_, e⟩ | ⟨_, e⟩ <;> rw [e]
    · exact h.txDone ready kind tx dec more allowed _
    · exact h.txFail ready kind tx
    · exact h.txHang ready kind tx
  | commit idle done frame => exact h.commit ready frame idle done

/-- The host's turn. A held write is never completed in reset, where none is held (R65, R261). -/
theorem hostStep {t : State} (h : s.Inv) (hstep : HostStep s t) : t.Inv := by
  cases hstep with
  | waits eq => exact eq ▸ h
  | answered p a eq => exact eq ▸ h.of_world p s.turns _
  | holds p v out busy free eq =>
    subst eq
    exact (h.of_world p s.turns s.answers).of_inputs out s.arg (some v)
  | issues p v out free eq =>
    subst eq
    exact ((h.of_world p s.turns s.answers).issue out free v).of_world p s.turns _
  | writesArg p v out eq =>
    subst eq
    exact (h.of_world p s.turns _).of_inputs out v s.held
  | completes w held free eq =>
    have out : s.rst = false := Bool.eq_false_iff.mpr fun hrst => by simp [(h.reset hrst).held] at held
    subst eq
    exact ((h.of_inputs out s.arg none).issue out free w).of_world s.program s.turns _

end State.Inv

/-- Every step keeps the invariant: each agent's turn does. -/
theorem step_inv {s t : State} (h : s.Inv) (hstep : step s = .next t) : t.Inv := by
  have turn (rest : List Turn) : State.Inv { s with turns := rest } := h.of_world s.program rest s.answers
  obtain ⟨-, hstep⟩ := step_cases hstep
  cases hstep with
  | reset level rest _ eq => exact eq ▸ (turn rest).resetTurn level
  | command rest i _ ready dec eq => exact (turn rest).execStep ready dec (exec_step eq)
  | illegal rest why _ ready _ eq => exact eq ▸ (turn rest).commit ready (commitFrame_finish _ _) rfl rfl
  | waits rest eq => exact eq ▸ turn rest
  | host rest eq => exact (turn rest).hostStep eq

end Sys2Proof.Machine
end

section
/-! The invariant after power-on and along a step. -/

open Sys2Proof Sys2Proof.Machine

/-- Settles O15: each agent's turn keeps the invariant: an access, a change of RST, a transaction or a commit. -/
theorem stepKeepsInvariant : Obligations.StepKeepsInvariant := by
  unfold Obligations.StepKeepsInvariant
  exact fun s t => step_inv

/-- Settles O16: power-on leaves a legal instance idle at its reset values. -/
theorem powerOnInvariant : Obligations.PowerOnInvariant := by
  unfold Obligations.PowerOnInvariant
  have powerOn (p : Params) (legal : p.legal = true) : (State.powerOn p).Inv := (powerOnValues p).1.inv legal
  exact ⟨powerOn, powerOn Params.reference (by decide)⟩

end

section
/-! What a safe state's step leaves (R7, R60): the instance, and a host that keeps to the window. -/

namespace Sys2Proof.Machine

open Sys2Proof

theorem transact_program (kind : TxKind) (tx : List Byte) (s : State) : (s.transact kind tx).program = s.program := by
  rcases transact_cases kind tx s with ⟨_, _, _, e⟩ | ⟨_, e⟩ | ⟨_, e⟩ <;> rw [e] <;> rfl

theorem ExecStep.program {i : Instr} {s t : State} (h : ExecStep i s t) : t.program = s.program := by
  cases h with
  | transaction kind tx _ _ _ _ eq => rw [eq, transact_program]
  | commit _ _ frame => exact frame.program

/-- A write to the window changes neither the instance nor the host's program. -/
theorem writeWindow_params_program (off n : Nat) (v : Word) (s : State) :
    (writeWindow off n v s).params = s.params ∧ (writeWindow off n v s).program = s.program := by
  rcases writeWindow_cases off n v s with e | ⟨_, _, e⟩ | ⟨_, _, e⟩ | ⟨_, e⟩ <;> rw [e] <;> exact ⟨rfl, rfl⟩

theorem completeHeld_params_program (w : Word) (s : State) :
    (s.completeHeld w).params = s.params ∧ (s.completeHeld w).program = s.program := by
  unfold State.completeHeld
  split <;> exact ⟨rfl, rfl⟩

theorem resetTurn_program (level : Bool) (s : State) : (s.resetTurn level).program = s.program := by
  cases level <;> rfl

/-- Safety looks at the instance and the host's program alone. -/
theorem State.Safe.of_eq {s t : State} (h : s.Safe) (eq : t.params = s.params ∧ t.program = s.program) : t.Safe := by
  obtain ⟨params, program⟩ := eq
  rw [State.Safe, params, program]
  exact h

/-- The outcome is a safe next state. -/
def GoesOn (o : Outcome) : Prop := ∃ t, o = .next t ∧ t.Safe

theorem goesOn_next {t : State} (h : t.Safe) : GoesOn (.next t) := ⟨t, rfl, h⟩

/-- The running command's step, or the end of an illegal word's command. -/
theorem goesOn_runCommand {s : State} (h : s.Safe) : GoesOn (runCommand s) := by
  unfold runCommand
  split
  next i _ =>
    obtain ⟨t, ht⟩ := exec_next i s
    have hstep : ExecStep i s t := exec_step ht
    exact ⟨t, ht, h.of_eq ⟨hstep.params, hstep.program⟩⟩
  next => exact goesOn_next (h.of_eq ⟨rfl, rfl⟩)

theorem goesOn_controllerTurn {s : State} (h : s.Safe) : GoesOn (controllerTurn s) := by
  unfold controllerTurn
  split
  · exact goesOn_runCommand h
  · exact goesOn_next h

section Access

variable {s : State} {addr : Nat}

theorem hostRead_inside (hlow : s.params.base ≤ addr) (hhigh : addr < s.params.base + 64) (n : Nat) :
    hostRead addr n s = .next (s.answer (readAnswer s (addr - s.params.base) n)) := by
  simp only [hostRead, windowOffset, if_pos (And.intro hlow hhigh)]

theorem hostWrite_inside (hlow : s.params.base ≤ addr) (hhigh : addr < s.params.base + 64) (n : Nat) (v : Word) :
    hostWrite addr n v s = .next (writeWindow (addr - s.params.base) n v s) := by
  simp only [hostWrite, windowOffset, if_pos (And.intro hlow hhigh)]

variable (h : addr < s.params.base ∨ s.params.base + 64 ≤ addr)
include h

theorem windowOffset_outside : windowOffset s.params addr = none := if_neg (by omega)

theorem hostRead_outside (n : Nat) : hostRead addr n s = .fault .outsideWindow := by
  rw [hostRead, windowOffset_outside h]

theorem hostWrite_outside (n : Nat) (v : Word) : hostWrite addr n v s = .fault .outsideWindow := by
  rw [hostWrite, windowOffset_outside h]

end Access

/-- An operation of a program that keeps to the window: its access is answered, and what a loop puts back into the program has
no address of its own (R60, R101). -/
theorem goesOn_hostOperation {op : HostOp} {rest : List HostOp} {s : State} (h : s.Safe) (hp : s.program = op :: rest) :
    GoesOn (hostOperation op rest s) := by
  obtain ⟨legal, window⟩ := h
  rw [hp, List.forall_mem_cons] at window
  obtain ⟨hop, hrest⟩ := window
  have hloop (again : HostOp) (hagain : again.inWindow s.params) (c : Bool) :
      ∀ o ∈ (if c then rest else again :: rest), o.inWindow s.params := by
    cases c with
    | true => exact hrest
    | false => exact List.forall_mem_cons.mpr ⟨hagain, hrest⟩
  have written (program : List HostOp) (hprogram : ∀ o ∈ program, o.inWindow s.params) (off n : Nat) (v : Word) :
      (writeWindow off n v { s with program := program }).Safe :=
    State.Safe.of_eq (s := { s with program := program }) ⟨legal, hprogram⟩ (writeWindow_params_program ..)
  cases op with
  | read addr n =>
    obtain ⟨hlow, hhigh⟩ := hop
    exact ⟨_, hostRead_inside (s := { s with program := rest }) hlow hhigh n, legal, hrest⟩
  | write addr n v =>
    obtain ⟨hlow, hhigh⟩ := hop
    exact ⟨_, hostWrite_inside (s := { s with program := rest }) hlow hhigh n v, written rest hrest _ n v⟩
  | wait => exact goesOn_next ⟨legal, hloop .wait trivial _⟩
  | pollReady => exact goesOn_next (written (.wait :: .pollCheck :: rest) (by simpa [HostOp.inWindow] using hrest) _ 4 _)
  | pollCheck => exact goesOn_next ⟨legal, hloop .pollReady trivial _⟩

/-- The host's turn: a held write, or the next operation of its program, if there is one. -/
theorem goesOn_hostTurn {s : State} (h : s.Safe) : GoesOn (hostTurn s) := by
  unfold hostTurn
  split
  next w _ => exact goesOn_next (h.of_eq (completeHeld_params_program w s))
  next =>
    split
    next => exact goesOn_next h
    next op rest hp => exact goesOn_hostOperation h hp

theorem goesOn_step {s : State} (h : s.Safe) : GoesOn (step s) := by
  have turn (rest : List Turn) : State.Safe { s with turns := rest } := h.of_eq ⟨rfl, rfl⟩
  have legal : s.params.legal = true := h.left
  rw [step, agentStep, if_pos legal]
  split
  next level rest _ => exact goesOn_next ((turn rest).of_eq ⟨resetTurn_params level _, resetTurn_program level _⟩)
  next rest _ => exact goesOn_controllerTurn (turn rest)
  next rest _ => exact goesOn_hostTurn (turn rest)
  next =>
    split
    · exact goesOn_runCommand h
    · exact goesOn_hostTurn h

end Sys2Proof.Machine
end

section
/-! Steps that go on, and the one access that stops the model. -/

open Sys2Proof Sys2Proof.Machine

/-- Settles O13: every agent has a next state to give, and none changes the parameters or puts an address into the program. -/
theorem safeStepsGoOn : Obligations.SafeStepsGoOn := by
  unfold Obligations.SafeStepsGoOn
  exact fun s => goesOn_step

/-- Settles O14: the access is the host's next operation, and its address has no offset in the window. -/
theorem outsideWindowFaults : Obligations.OutsideWindowFaults := by
  unfold Obligations.OutsideWindowFaults
  intro s rest addr n prog hl ht hn hp hout
  rcases hp with hp | ⟨v, hp⟩
  · exact (step_hostOperation hl hn ht hp).trans (hostRead_outside (s := { s with turns := rest, program := prog }) hout n)
  · exact (step_hostOperation hl hn ht hp).trans
      (hostWrite_outside (s := { s with turns := rest, program := prog }) hout n v)

end

section
/-! The controller's step is the running command's (R79). -/

namespace Sys2Proof.Machine

open Sys2Proof

theorem runCommand_of_command {s : State} {i : Instr} (hd : decodeWord s.opl.w = .command i) : runCommand s = exec i s := by
  rw [runCommand, hd]

theorem decodeWord_of_decodeTableWord {nbits w : Nat} {i : Instr} (h : decodeTableWord nbits w = some i) :
    decodeWord (tableWord nbits w) = .command i := by
  unfold decodeTableWord at h
  split at h
  · split at h
    · cases h
      assumption
    · cases h
  · cases h

end Sys2Proof.Machine
end

section
/-! The controller's step, and SOFT_RESET's. -/

open Sys2Proof Sys2Proof.Machine

/-- Settles O10: the controller is ready, so its turn, laid down or not, runs the latched command. -/
theorem stepRunsRunningCommand : Obligations.StepRunsRunningCommand := by
  unfold Obligations.StepRunsRunningCommand
  intro s i hl hr hp hx hd
  have hready : s.controllerReady = true := s.controllerReady_iff.mpr ⟨hr, hp, hx⟩
  refine ⟨fun rest ht => ?_, fun ht => ?_⟩
  · have hturn : step s = controllerTurn { s with turns := rest } := by simp only [step, agentStep, hl, if_true, ht]
    exact hturn.trans ((if_pos hready).trans (runCommand_of_command hd))
  · have hturn : step s = runCommand s := by simp only [step, agentStep, hl, if_true, ht, hready]
    exact hturn.trans (runCommand_of_command hd)

/-- Settles O11: the placed word is latched and running, and the controller's turn is laid down. -/
theorem fetchWordRunsNext : Obligations.FetchWordRunsNext := by
  unfold Obligations.FetchWordRunsNext
  intro s nbits w i hl hd
  obtain ⟨hturn, -⟩ := stepRunsRunningCommand (s.withFetchWord nbits w) i hl rfl nofun rfl (decodeWord_of_decodeTableWord hd)
  exact hturn s.turns rfl

/-- Settles O42: the commit writes the reset values over what the shared commit leaves. -/
theorem softResetClears : Obligations.SoftResetClears := by
  unfold Obligations.SoftResetClears
  intro s
  rw [exec, execSoftReset, State.finish, Status.reset]

end

section
/-! CONFIGURE, step by step (R145 to R150). -/

namespace Sys2Proof.Machine

open Sys2Proof Sys2Proof.Certificates

/-- CONFIGURE is a command of two transactions, which send the byte that the instance packs. -/
theorem exec_configure (s u : State) (cfg : Cfg) (hu : u.params = s.params) :
    exec (.configure cfg) u = .next (twoTransactions .write [0x80#8, pack s.params cfg] .full [0x00#8, 0x00#8]
      (configureFails (pack s.params cfg)) (configureCommits (pack s.params cfg)) u) := by
  rw [exec, execConfigure, hu]
  rfl

theorem verifyPasses_iff (p : Params) (b rb : Byte) :
    verifyPasses p b rb = true ↔ rb &&& p.verifyMask = b &&& p.verifyMask := beq_iff_eq

/-- The commit after a failed transaction (R149). -/
theorem configureFails_eq (s : State) (b : Byte) : configureFails b s = s.errored .io .unconfigured b s.cfgrb := by
  rw [configureFails, State.raise_eq, finish_of_error rfl]
  rfl

section Commits

variable {s : State} {b : Byte}

/-- The commit of a read-back that agrees with the byte written on the bits of `VERIFY_MASK` (R148). -/
theorem configureCommits_verified (h : s.opl.rx2.b1 &&& s.params.verifyMask = b &&& s.params.verifyMask) :
    configureCommits b s = { s with
      cfgw := b
      cfgrb := s.opl.rx2.b1
      status := { s.status with busy := false, err := .ok, state := .configured }
      phase := .idle } := by
  rw [configureCommits, if_pos ((verifyPasses_iff ..).mpr h), State.finish, stickyAfter_ok]
  rfl

/-- The commit of a read-back that differs there (R150). -/
theorem configureCommits_mismatch (h : s.opl.rx2.b1 &&& s.params.verifyMask ≠ b &&& s.params.verifyMask) :
    configureCommits b s = s.errored .verify .unconfigured b s.opl.rx2.b1 := by
  rw [configureCommits, if_neg (mt (verifyPasses_iff ..).mp h), State.raise_eq, finish_of_error rfl]
  rfl

end Commits

end Sys2Proof.Machine
end

section
/-! CONFIGURE, from its issue to its end. -/

open Sys2Proof Sys2Proof.Machine Sys2Proof.Certificates

/-- Settles O37: a write and a read-back that complete, and the commit that verifies. -/
theorem configureSucceeds : Obligations.ConfigureSucceeds := by
  unfold Obligations.ConfigureSucceeds
  intro s cfg x y r0 rb hs ha hb hverify
  obtain ⟨s1, s2, h1, h2, h3⟩ := exec_both_done (fun u hu _ => exec_configure s u cfg hu) hs ha hb
  refine ⟨s1, s2, h1, h2, h3.trans (congrArg _ ?_)⟩
  rw [txDone_txDone_eq_afterBus hs]
  exact configureCommits_verified hverify

/-- Settles O38: the write fails and is the last, the read-back fails, or it differs and the commit raises VERIFY. -/
theorem configureFails : Obligations.ConfigureFails := by
  unfold Obligations.ConfigureFails
  intro s cfg hs
  refine ⟨fun ha => ?write, fun x y ha => ⟨fun hb => ?readBack, fun r0 rb hb hverify => ?verify⟩⟩
  case write =>
    obtain ⟨s1, h1, h2⟩ := exec_first_failed (fun u hu _ => exec_configure s u cfg hu) hs ha
    refine ⟨s1, h1, h2.trans (congrArg _ ?_)⟩
    rw [txFail_eq_afterBus, configureFails_eq]
    rfl
  case readBack =>
    obtain ⟨s1, s2, h1, h2, h3⟩ := exec_second_failed (fun u hu _ => exec_configure s u cfg hu) hs ha hb
    refine ⟨s1, s2, h1, h2, h3.trans (congrArg _ ?_)⟩
    rw [txDone_txFail_eq_afterBus hs, configureFails_eq]
    rfl
  case verify =>
    obtain ⟨s1, s2, h1, h2, h3⟩ := exec_both_done (fun u hu _ => exec_configure s u cfg hu) hs ha hb
    refine ⟨s1, s2, h1, h2, h3.trans (congrArg _ ?_)⟩
    rw [txDone_txDone_eq_afterBus hs]
    exact configureCommits_mismatch hverify

end
